-- ==== Sys2Proof/Word.lean ====
section
/-! DEFINITION. The word types of the block: bytes, the 16-bit `len`, the 32-bit registers and `data`, the
64-bit data field (00_scope.md rule R12, 30_encoding.md rules R91 and R92). -/

namespace Sys2Proof

/-- A byte. -/
abbrev Byte := BitVec 8

/-- The 16-bit `len` field of a CRQ message (R12, R91). -/
abbrev Half := BitVec 16

/-- A CRB register word and the `data` field of a CRQ message (R12). -/
abbrev Word := BitVec 32

/-- The 64-bit data field of an MMIO transaction (R92) and the reserved bytes of a CRQ message (R91). -/
abbrev Long := BitVec 64

end Sys2Proof
end

