-- ==== Sys2Proof/Config.lean ====
section
/-! DEFINITION. The implementation parameters the spec fixes (00_scope.md rule R8) and the free values: constants
with no body, which no proof can see. The parameters the spec leaves open (FRONTEND, B, BE_VERSION,
HAD_STARTUP_ERROR_0) are fields of `Machine.State`, so that a statement about every state holds for each of them. -/

namespace Sys2Proof.Config

/-- ADDR_BASE, the physical base of the CRB footprint (R8). -/
abbrev addrBase : Nat := 0xFED40000

/-- ADDR_SIZE, the total CRB device address window (R8). -/
abbrev addrSize : Nat := 0x1000

/-- REG_SIZE, the size of the CRB register file (R8). -/
abbrev regSize : Nat := 0x100

/-- M = ADDR_SIZE - REG_SIZE, the maximum command window (R8). -/
abbrev maxWindow : Nat := 3840

/-- PAGE, the page size of the CRQ path (R8). -/
abbrev page : Nat := 4096

/-- The greatest in_len and out_len: "naturals at most 2^32 - 1" (30_encoding.md rule R102). -/
abbrev maxLength : Nat := 2 ^ 32 - 1

/-- LOCALITY, passed on every request (R8, R228). -/
abbrev locality : Nat := 0

/-- FREE VALUE (log 5): byte `i` of the draw numbered `d` ("draw byte", R67, R74, R222). -/
opaque freeByte (d i : Nat) : Byte

/-- FREE VALUE (log 5): the boolean of the draw numbered `d` ("draw bool": DMA status R74, send status R75,
StartupTpm's result R226). -/
opaque freeBool (d : Nat) : Bool

/-- FREE VALUE (log 5, log 15): the number of the draw `d` (which outstanding request completes, R222). -/
opaque freeNat (d : Nat) : Nat

end Sys2Proof.Config
end

