-- ==== Sys2Proof/Syntax.lean ====
section
/-! DEFINITION. The inputs that drive the block: the packets as they arrive on the three ports (30_encoding.md
rule R90) and the operations they decode to, one constructor per row of spec/opcode_table.json. -/

namespace Sys2Proof

/-- FRONTEND (R8): which front end a device instance is. -/
inductive FrontEnd where
  | crb
  | crq
  deriving DecidableEq, Repr

/-- VSTATE (R45): Idle = 0, Executing = 1, Completed = 2; code 3 is never written. -/
inductive VState where
  | idle
  | executing
  | completed
  deriving DecidableEq, Repr

/-- A CRQ message, field by field (R91). -/
structure CrqMsg where
  /-- byte 0, the tag -/
  valid : Byte
  /-- byte 1, the opcode -/
  msg : Byte
  /-- bytes 2-3, big-endian -/
  len : Half
  /-- bytes 4-7, big-endian -/
  data : Word
  /-- bytes 8-15 -/
  rsv : Long
  deriving DecidableEq, Repr

/-- The snapshot record of R203: VSTATE, DEFERRED, SAVED, N_q and SCR[0..N_q). -/
structure Snapshot where
  vstate : VState
  deferred : Bool
  saved : CrqMsg
  nq : Nat
  scr : List Byte
  deriving DecidableEq, Repr

/-- The named operands of the events (R93). The spec names them and gives them no byte layout (log 11). -/
structure EvtOperands where
  /-- `r`, the backend's signed 32-bit result (two's complement) -/
  result : Word
  /-- `out`, the output bytes that are given -/
  out : List Byte
  /-- CONSTRUCT's FRONTEND -/
  frontEnd : FrontEnd
  /-- CONSTRUCT's "backend present" -/
  backendPresent : Bool
  /-- RESTORE_CRQ's snapshot record -/
  record : Snapshot
  deriving DecidableEq, Repr

/-- One transaction on one of the three ports. "A decoder tells the format from the port a word arrives on" (R90). -/
inductive Packet where
  /-- The MMIO bus: the 16-bit header and the 64-bit data field (R92). -/
  | mmio (header : BitVec 16) (data : Long)
  /-- The CRQ queue: the bytes of one message, byte 0 first (R91). -/
  | crq (bytes : List Byte)
  /-- The event interface: the 8-bit code and the named operands (R93). -/
  | evt (code : Byte) (ops : EvtOperands)
  deriving DecidableEq, Repr

/-- The operations. `sz` is the header's S field, so the access has `sz + 1` bytes; an `off` of 8 bits is an offset
in the register window, one of 12 bits an offset in the footprint; `v` is V[8n-1:0]. -/
inductive Instr where
  | crbRdReg (sz : BitVec 3) (off : BitVec 8)
  | crbWrCmdReady (sz : BitVec 3)
  | crbWrGoIdle (sz : BitVec 3)
  | crbWrCtrlReqOther (sz : BitVec 3) (v : Long)
  | crbWrCancelInvoke (sz : BitVec 3)
  | crbWrCancelOther (sz : BitVec 3) (v : Long)
  | crbWrStartInvoke (sz : BitVec 3)
  | crbWrStartOther (sz : BitVec 3) (v : Long)
  | crbWrLocRequestAccess (sz : BitVec 3)
  | crbWrLocRelinquish (sz : BitVec 3)
  | crbWrLocResetEstablishment (sz : BitVec 3)
  | crbWrLocCtrlOther (sz : BitVec 3) (v : Long)
  | crbWrIgnored (sz : BitVec 3) (off : BitVec 8) (v : Long)
  | crbRdData (sz : BitVec 3) (off : BitVec 12)
  | crbWrData (sz : BitVec 3) (off : BitVec 12) (v : Long)
  | crqInitResult (len : Half) (data : Word) (rsv : Long)
  | crqInitCompleteResult (len : Half) (data : Word) (rsv : Long)
  | crqInitOther (msg : Byte) (len : Half) (data : Word) (rsv : Long)
  | crqTpmCommand (len : Half) (data : Word) (rsv : Long)
  | crqGetVersion (len : Half) (data : Word) (rsv : Long)
  | crqGetRtceBufferSize (len : Half) (data : Word) (rsv : Long)
  | crqPrepareToSuspend (len : Half) (data : Word) (rsv : Long)
  | crqCmdOther (msg : Byte) (len : Half) (data : Word) (rsv : Long)
  | crqTagOther (valid msg : Byte) (len : Half) (data : Word) (rsv : Long)
  | beCompleteCrb (r : Word) (out : List Byte)
  | beCompleteCrq (r : Word) (out : List Byte)
  | resetCrb
  | resetCrq
  | construct (fe : FrontEnd) (backendPresent : Bool)
  | destroy
  | quiesceCrq
  | snapshotCrq
  | restoreCrq (rec : Snapshot)
  | resumeCrq
  | quiesceCrb
  | evtUndefined (code : Byte)
  deriving DecidableEq, Repr

end Sys2Proof
end

