-- ==== Sys2Proof/Machine/Bytes.lean ====
section
/-! DEFINITION. Byte-order and arithmetic helpers (00_scope.md rules R11 and R12), the widths of an access, and a CRQ message as its 16
bytes (30_encoding.md rule R91). -/

namespace Sys2Proof.Machine

/-- `trunc16(v) = v mod 2^16` (R12), as the 16-bit field it is written to. -/
def trunc16 (v : Nat) : Half := BitVec.ofNat 16 v

/-- `round_up(x, p) = ceil(x / p) * p` for `p > 0` (R12). -/
def roundUp (x p : Nat) : Nat := (x + (p - 1)) / p * p

/-- The access width `n = S + 1` of a header's S field (R92). -/
def accessBytes (sz : BitVec 3) : Nat := sz.toNat + 1

/-- `mask(n) = 2^(8n) - 1` (R12) on the 64-bit data field. -/
def byteMask (n : Nat) : Long := BitVec.ofNat 64 (2 ^ (8 * n) - 1)

/-- V[8n-1:0], zero-extended (R94). -/
def keepBytes (sz : BitVec 3) (v : Long) : Long := v &&& byteMask (accessBytes sz)

/-- `be16` (R11). -/
def be16 (b0 b1 : Byte) : Half := b0 ++ b1

/-- `be32` (R11). -/
def be32 (b0 b1 b2 b3 : Byte) : Word := b0 ++ b1 ++ b2 ++ b3

/-- Eight bytes, first one most significant: the reserved bytes of a CRQ message as one number. -/
def be64 (b0 b1 b2 b3 b4 b5 b6 b7 : Byte) : Long := be32 b0 b1 b2 b3 ++ be32 b4 b5 b6 b7

/-- `to_be16` (R11). -/
def toBe16 (v : Half) : List Byte := [v.extractLsb' 8 8, v.extractLsb' 0 8]

/-- `to_be32` (R11). -/
def toBe32 (v : Word) : List Byte :=
  [v.extractLsb' 24 8, v.extractLsb' 16 8, v.extractLsb' 8 8, v.extractLsb' 0 8]

/-- The eight reserved bytes in wire order. -/
def toBe64 (v : Long) : List Byte := toBe32 (v.extractLsb' 32 32) ++ toBe32 (v.extractLsb' 0 32)

/-- `le_n` on the bytes of a list, as a natural number (R11). -/
def leNat : List Byte → Nat
  | [] => 0
  | b :: bs => b.toNat + 256 * leNat bs

/-- `le_n` as the 64-bit value a read returns, zero above its bytes (R11, R67). -/
def leValue (bs : List Byte) : Long := BitVec.ofNat 64 (leNat bs)

/-- `to_le_n(v)`: bytes `k`, `k+1`, ... of v, `n` of them (R11); `to_le_n` itself is `toLeFrom v 0 n`. -/
def toLeFrom (v : Long) (k : Nat) : Nat → List Byte
  | 0 => []
  | n + 1 => v.extractLsb' (8 * k) 8 :: toLeFrom v (k + 1) n

/-- The 16 bytes of a CRQ message, byte 0 first (R91). -/
def crqBytes (m : CrqMsg) : List Byte := [m.valid, m.msg] ++ toBe16 m.len ++ toBe32 m.data ++ toBe64 m.rsv

/-- The CRQ message in 16 bytes; any other number of bytes is no message (R91, R101). -/
def crqOfBytes : List Byte → Option CrqMsg
  | [b0, b1, b2, b3, b4, b5, b6, b7, b8, b9, b10, b11, b12, b13, b14, b15] =>
    some ⟨b0, b1, be16 b2 b3, be32 b4 b5 b6 b7, be64 b8 b9 b10 b11 b12 b13 b14 b15⟩
  | _ => none

end Sys2Proof.Machine
end

