-- ==== Sys2Proof/WellFormed.lean ====
section
/-! DEFINITION. Well-formed operations: those that some packet of 30_encoding.md decodes to. The "other" rows hold
only the values the named rows leave (R95, R96, R99); a data value has no bits above its width (R92). -/

namespace Sys2Proof

/-- The 11 event codes of R93. -/
def eventCodes : List Byte := [0x01, 0x02, 0x10, 0x11, 0x20, 0x21, 0x30, 0x31, 0x32, 0x33, 0x34]

/-- The four command offsets of the register window (R65, R95). -/
def commandOffsets : List (BitVec 8) := [0x08, 0x40, 0x48, 0x4C]

/-- `V[63:8n] = 0` (R92). -/
def dataFits (sz : BitVec 3) (v : Long) : Bool := Machine.keepBytes sz v == v

/-- A well-formed snapshot record holds N_q scratch bytes (R203). -/
def Snapshot.wf (r : Snapshot) : Bool := r.scr.length == r.nq

/-- The check of one operation. -/
def Instr.wf : Instr → Bool
  | .crbRdReg _ _ => true
  | .crbWrCmdReady _ => true
  | .crbWrGoIdle _ => true
  | .crbWrCtrlReqOther sz v => dataFits sz v && v != 1 && v != 2
  | .crbWrCancelInvoke _ => true
  | .crbWrCancelOther sz v => dataFits sz v && v != 1
  | .crbWrStartInvoke _ => true
  | .crbWrStartOther sz v => dataFits sz v && v != 1
  | .crbWrLocRequestAccess _ => true
  | .crbWrLocRelinquish _ => true
  | .crbWrLocResetEstablishment _ => true
  | .crbWrLocCtrlOther sz v => dataFits sz v && v != 1 && v != 2 && v != 8
  | .crbWrIgnored sz off v => dataFits sz v && !commandOffsets.contains off
  | .crbRdData _ off => 0x100 ≤ off.toNat
  | .crbWrData sz off v => dataFits sz v && (0x100 ≤ off.toNat : Bool)
  | .crqInitResult _ _ _ => true
  | .crqInitCompleteResult _ _ _ => true
  | .crqInitOther msg _ _ _ => msg != 0x01 && msg != 0x02
  | .crqTpmCommand _ _ _ => true
  | .crqGetVersion _ _ _ => true
  | .crqGetRtceBufferSize _ _ _ => true
  | .crqPrepareToSuspend _ _ _ => true
  | .crqCmdOther msg _ _ _ => msg != 0x01 && msg != 0x02 && msg != 0x03 && msg != 0x04
  | .crqTagOther valid _ _ _ _ => valid != 0xC0 && valid != 0x80
  | .beCompleteCrb _ _ => true
  | .beCompleteCrq _ _ => true
  | .resetCrb => true
  | .resetCrq => true
  | .construct _ _ => true
  | .destroy => true
  | .quiesceCrq => true
  | .snapshotCrq => true
  | .restoreCrq rec => rec.wf
  | .resumeCrq => true
  | .quiesceCrb => true
  | .evtUndefined code => !eventCodes.contains code

end Sys2Proof
end

