-- ==== Sys2Proof/Decode.lean ====
section
/-! DEFINITION. The decoder (30_encoding.md rules R95, R96, R93, R99), the encoder written from the same tables, the
opcode table as data, and the word the host's table questions are put in. Decoding is total: a packet gives one
operation, but for a CRQ message of other than 16 bytes, which is refused by name (R101). -/

namespace Sys2Proof

/-- Why a packet decodes to no operation. -/
inductive DecodeError where
  /-- A CRQ message of `n` bytes, not 16: refused at the transport boundary (R101). -/
  | crqLength (n : Nat)
  deriving DecidableEq, Repr

/-- A word matches a row: `(word & mask) = match` (R99). -/
def maskMatch {w : Nat} (x mask pat : BitVec w) : Bool := x &&& mask == pat

/-- The MMIO map (R95): the rows in decreasing priority. Bits of V above the access width are not looked at
(R94; log 10). -/
def decodeMmio (h : BitVec 16) (data : Long) : Instr :=
  let sz := h.extractLsb' 12 3
  let v := Machine.keepBytes sz data
  if maskMatch h 0x8F00 0x0000 then .crbRdReg sz (h.extractLsb' 0 8)
  else if maskMatch h 0x8FFF 0x8040 then
    if v = 0x1 then .crbWrCmdReady sz
    else if v = 0x2 then .crbWrGoIdle sz
    else .crbWrCtrlReqOther sz v
  else if maskMatch h 0x8FFF 0x8048 then
    if v = 0x1 then .crbWrCancelInvoke sz else .crbWrCancelOther sz v
  else if maskMatch h 0x8FFF 0x804C then
    if v = 0x1 then .crbWrStartInvoke sz else .crbWrStartOther sz v
  else if maskMatch h 0x8FFF 0x8008 then
    if v = 0x1 then .crbWrLocRequestAccess sz
    else if v = 0x2 then .crbWrLocRelinquish sz
    else if v = 0x8 then .crbWrLocResetEstablishment sz
    else .crbWrLocCtrlOther sz v
  else if maskMatch h 0x8F00 0x8000 then .crbWrIgnored sz (h.extractLsb' 0 8) v
  else if maskMatch h 0x8000 0x0000 then .crbRdData sz (h.extractLsb' 0 12)
  else .crbWrData sz (h.extractLsb' 0 12) v

/-- The CRQ map, keyed on (valid, msg) (R96). -/
def decodeCrq (m : CrqMsg) : Instr :=
  if m.valid = 0xC0 then
    if m.msg = 0x01 then .crqInitResult m.len m.data m.rsv
    else if m.msg = 0x02 then .crqInitCompleteResult m.len m.data m.rsv
    else .crqInitOther m.msg m.len m.data m.rsv
  else if m.valid = 0x80 then
    if m.msg = 0x02 then .crqTpmCommand m.len m.data m.rsv
    else if m.msg = 0x01 then .crqGetVersion m.len m.data m.rsv
    else if m.msg = 0x03 then .crqGetRtceBufferSize m.len m.data m.rsv
    else if m.msg = 0x04 then .crqPrepareToSuspend m.len m.data m.rsv
    else .crqCmdOther m.msg m.len m.data m.rsv
  else .crqTagOther m.valid m.msg m.len m.data m.rsv

/-- The event codes (R93); every other code is the refusal row EVT_UNDEFINED (R99). -/
def decodeEvt (e : Byte) (ops : EvtOperands) : Instr :=
  if e = 0x01 then .beCompleteCrb ops.result ops.out
  else if e = 0x02 then .beCompleteCrq ops.result ops.out
  else if e = 0x10 then .resetCrb
  else if e = 0x11 then .resetCrq
  else if e = 0x20 then .construct ops.frontEnd ops.backendPresent
  else if e = 0x21 then .destroy
  else if e = 0x30 then .quiesceCrq
  else if e = 0x31 then .snapshotCrq
  else if e = 0x32 then .restoreCrq ops.record
  else if e = 0x33 then .resumeCrq
  else if e = 0x34 then .quiesceCrb
  else .evtUndefined e

/-- The decoder, total on every packet of every port (R90, R99). -/
def decode : Packet → Except DecodeError Instr
  | .mmio h v => .ok (decodeMmio h v)
  | .crq bytes =>
    match Machine.crqOfBytes bytes with
    | some m => .ok (decodeCrq m)
    | none => .error (.crqLength bytes.length)
  | .evt e ops => .ok (decodeEvt e ops)

/-! ## The encoder -/

/-- The header `D S OFF` (R92). -/
def mmioHeader (write : Bool) (sz : BitVec 3) (off : BitVec 12) : BitVec 16 := BitVec.ofBool write ++ sz ++ off

/-- An offset in the register window as an offset in the footprint. -/
def regOffset (off : BitVec 8) : BitVec 12 := 0#4 ++ off

/-- The record an event carries when it names none (log 11): a blank record of one page. -/
def blankSnapshot : Snapshot := ⟨.idle, false, ⟨0, 0, 0, 0, 0⟩, Config.page, []⟩

/-- The operands of an event that names none (log 11). -/
def blankOperands : EvtOperands := ⟨0, [], .crb, false, blankSnapshot⟩

/-- A CRQ message as a packet. -/
def crqPacket (valid msg : Byte) (len : Half) (data : Word) (rsv : Long) : Packet :=
  .crq (Machine.crqBytes ⟨valid, msg, len, data, rsv⟩)

/-- The packet of an operation (R92, R95, R91, R96, R93). -/
def encode : Instr → Packet
  | .crbRdReg sz off => .mmio (mmioHeader false sz (regOffset off)) 0
  | .crbWrCmdReady sz => .mmio (mmioHeader true sz 0x040) 0x1
  | .crbWrGoIdle sz => .mmio (mmioHeader true sz 0x040) 0x2
  | .crbWrCtrlReqOther sz v => .mmio (mmioHeader true sz 0x040) v
  | .crbWrCancelInvoke sz => .mmio (mmioHeader true sz 0x048) 0x1
  | .crbWrCancelOther sz v => .mmio (mmioHeader true sz 0x048) v
  | .crbWrStartInvoke sz => .mmio (mmioHeader true sz 0x04C) 0x1
  | .crbWrStartOther sz v => .mmio (mmioHeader true sz 0x04C) v
  | .crbWrLocRequestAccess sz => .mmio (mmioHeader true sz 0x008) 0x1
  | .crbWrLocRelinquish sz => .mmio (mmioHeader true sz 0x008) 0x2
  | .crbWrLocResetEstablishment sz => .mmio (mmioHeader true sz 0x008) 0x8
  | .crbWrLocCtrlOther sz v => .mmio (mmioHeader true sz 0x008) v
  | .crbWrIgnored sz off v => .mmio (mmioHeader true sz (regOffset off)) v
  | .crbRdData sz off => .mmio (mmioHeader false sz off) 0
  | .crbWrData sz off v => .mmio (mmioHeader true sz off) v
  | .crqInitResult len data rsv => crqPacket 0xC0 0x01 len data rsv
  | .crqInitCompleteResult len data rsv => crqPacket 0xC0 0x02 len data rsv
  | .crqInitOther msg len data rsv => crqPacket 0xC0 msg len data rsv
  | .crqTpmCommand len data rsv => crqPacket 0x80 0x02 len data rsv
  | .crqGetVersion len data rsv => crqPacket 0x80 0x01 len data rsv
  | .crqGetRtceBufferSize len data rsv => crqPacket 0x80 0x03 len data rsv
  | .crqPrepareToSuspend len data rsv => crqPacket 0x80 0x04 len data rsv
  | .crqCmdOther msg len data rsv => crqPacket 0x80 msg len data rsv
  | .crqTagOther valid msg len data rsv => crqPacket valid msg len data rsv
  | .beCompleteCrb r out => .evt 0x01 { blankOperands with result := r, out := out }
  | .beCompleteCrq r out => .evt 0x02 { blankOperands with result := r, out := out }
  | .resetCrb => .evt 0x10 blankOperands
  | .resetCrq => .evt 0x11 blankOperands
  | .construct fe present => .evt 0x20 { blankOperands with frontEnd := fe, backendPresent := present }
  | .destroy => .evt 0x21 blankOperands
  | .quiesceCrq => .evt 0x30 blankOperands
  | .snapshotCrq => .evt 0x31 blankOperands
  | .restoreCrq rec => .evt 0x32 { blankOperands with record := rec }
  | .resumeCrq => .evt 0x33 blankOperands
  | .quiesceCrb => .evt 0x34 blankOperands
  | .evtUndefined code => .evt code blankOperands

/-! ## The opcode table as data (R99) -/

/-- The port of a format (R90). -/
inductive Port where
  | mmio
  | crq
  | evt
  deriving DecidableEq, Repr

/-- A row of spec/opcode_table.json: its mnemonic, format, mask, match and priority, and the data value it asks for. -/
structure Row where
  mnemonic : String
  port : Port
  mask : Nat
  pat : Nat
  priority : Nat
  data : Option Long := none
  deriving DecidableEq, Repr

/-- The rows of the MMIO format, in the table's order. -/
def mmioRows : List Row := [
  ⟨"CRB_RD_REG", .mmio, 0x8F00, 0x0000, 50, none⟩,
  ⟨"CRB_WR_CMD_READY", .mmio, 0x8FFF, 0x8040, 40, some 0x1⟩,
  ⟨"CRB_WR_GO_IDLE", .mmio, 0x8FFF, 0x8040, 40, some 0x2⟩,
  ⟨"CRB_WR_CTRL_REQ_OTHER", .mmio, 0x8FFF, 0x8040, 30, none⟩,
  ⟨"CRB_WR_CANCEL_INVOKE", .mmio, 0x8FFF, 0x8048, 40, some 0x1⟩,
  ⟨"CRB_WR_CANCEL_OTHER", .mmio, 0x8FFF, 0x8048, 30, none⟩,
  ⟨"CRB_WR_START_INVOKE", .mmio, 0x8FFF, 0x804C, 40, some 0x1⟩,
  ⟨"CRB_WR_START_OTHER", .mmio, 0x8FFF, 0x804C, 30, none⟩,
  ⟨"CRB_WR_LOC_REQUEST_ACCESS", .mmio, 0x8FFF, 0x8008, 40, some 0x1⟩,
  ⟨"CRB_WR_LOC_RELINQUISH", .mmio, 0x8FFF, 0x8008, 40, some 0x2⟩,
  ⟨"CRB_WR_LOC_RESET_ESTABLISHMENT", .mmio, 0x8FFF, 0x8008, 40, some 0x8⟩,
  ⟨"CRB_WR_LOC_CTRL_OTHER", .mmio, 0x8FFF, 0x8008, 30, none⟩,
  ⟨"CRB_WR_IGNORED", .mmio, 0x8F00, 0x8000, 20, none⟩,
  ⟨"CRB_RD_DATA", .mmio, 0x8000, 0x0000, 10, none⟩,
  ⟨"CRB_WR_DATA", .mmio, 0x8000, 0x8000, 10, none⟩]

/-- The rows of the CRQ format. Mask and match are the leading two bytes (valid, msg) of the table's 128 bits: its
other 112 bits are zero in every mask. -/
def crqRows : List Row := [
  ⟨"CRQ_INIT_RESULT", .crq, 0xFFFF, 0xC001, 40, none⟩,
  ⟨"CRQ_INIT_COMPLETE_RESULT", .crq, 0xFFFF, 0xC002, 40, none⟩,
  ⟨"CRQ_INIT_OTHER", .crq, 0xFF00, 0xC000, 30, none⟩,
  ⟨"CRQ_TPM_COMMAND", .crq, 0xFFFF, 0x8002, 40, none⟩,
  ⟨"CRQ_GET_VERSION", .crq, 0xFFFF, 0x8001, 40, none⟩,
  ⟨"CRQ_GET_RTCE_BUFFER_SIZE", .crq, 0xFFFF, 0x8003, 40, none⟩,
  ⟨"CRQ_PREPARE_TO_SUSPEND", .crq, 0xFFFF, 0x8004, 40, none⟩,
  ⟨"CRQ_CMD_OTHER", .crq, 0xFF00, 0x8000, 30, none⟩,
  ⟨"CRQ_TAG_OTHER", .crq, 0x0000, 0x0000, 0, none⟩]

/-- The rows of the EVT format. -/
def evtRows : List Row := [
  ⟨"BE_COMPLETE_CRB", .evt, 0xFF, 0x01, 10, none⟩,
  ⟨"BE_COMPLETE_CRQ", .evt, 0xFF, 0x02, 10, none⟩,
  ⟨"RESET_CRB", .evt, 0xFF, 0x10, 10, none⟩,
  ⟨"RESET_CRQ", .evt, 0xFF, 0x11, 10, none⟩,
  ⟨"CONSTRUCT", .evt, 0xFF, 0x20, 10, none⟩,
  ⟨"DESTROY", .evt, 0xFF, 0x21, 10, none⟩,
  ⟨"QUIESCE_CRQ", .evt, 0xFF, 0x30, 10, none⟩,
  ⟨"SNAPSHOT_CRQ", .evt, 0xFF, 0x31, 10, none⟩,
  ⟨"RESTORE_CRQ", .evt, 0xFF, 0x32, 10, none⟩,
  ⟨"RESUME_CRQ", .evt, 0xFF, 0x33, 10, none⟩,
  ⟨"QUIESCE_CRB", .evt, 0xFF, 0x34, 10, none⟩,
  ⟨"EVT_UNDEFINED", .evt, 0x00, 0x00, 0, none⟩]

/-- The opcode table. -/
def tableRows : List Row := mmioRows ++ crqRows ++ evtRows

/-- A row matches a packet of its port (R99). -/
def Row.hits (r : Row) : Packet → Bool
  | .mmio h v =>
    r.port == .mmio && h.toNat &&& r.mask == r.pat &&
      (match r.data with
       | none => true
       | some d => Machine.keepBytes (h.extractLsb' 12 3) v == d)
  | .crq bytes =>
    match Machine.crqOfBytes bytes with
    | none => false
    | some m => r.port == .crq && (m.valid ++ m.msg : BitVec 16).toNat &&& r.mask == r.pat
  | .evt e _ => r.port == .evt && e.toNat &&& r.mask == r.pat

/-- The first row of highest priority. -/
def topRow : List Row → Option Row
  | [] => none
  | r :: rs =>
    match topRow rs with
    | none => some r
    | some q => if q.priority ≤ r.priority then some r else some q

/-- "the rows of opcode_table.json are tried in decreasing priority, and the first whose (word & mask) = match
holds, with its cond when one is given, is the operation" (R99). -/
def rowOf (p : Packet) : Option String := (topRow (tableRows.filter (·.hits p))).map Row.mnemonic

/-- The row an operation stands for. -/
def Instr.mnemonic : Instr → String
  | .crbRdReg _ _ => "CRB_RD_REG"
  | .crbWrCmdReady _ => "CRB_WR_CMD_READY"
  | .crbWrGoIdle _ => "CRB_WR_GO_IDLE"
  | .crbWrCtrlReqOther _ _ => "CRB_WR_CTRL_REQ_OTHER"
  | .crbWrCancelInvoke _ => "CRB_WR_CANCEL_INVOKE"
  | .crbWrCancelOther _ _ => "CRB_WR_CANCEL_OTHER"
  | .crbWrStartInvoke _ => "CRB_WR_START_INVOKE"
  | .crbWrStartOther _ _ => "CRB_WR_START_OTHER"
  | .crbWrLocRequestAccess _ => "CRB_WR_LOC_REQUEST_ACCESS"
  | .crbWrLocRelinquish _ => "CRB_WR_LOC_RELINQUISH"
  | .crbWrLocResetEstablishment _ => "CRB_WR_LOC_RESET_ESTABLISHMENT"
  | .crbWrLocCtrlOther _ _ => "CRB_WR_LOC_CTRL_OTHER"
  | .crbWrIgnored _ _ _ => "CRB_WR_IGNORED"
  | .crbRdData _ _ => "CRB_RD_DATA"
  | .crbWrData _ _ _ => "CRB_WR_DATA"
  | .crqInitResult _ _ _ => "CRQ_INIT_RESULT"
  | .crqInitCompleteResult _ _ _ => "CRQ_INIT_COMPLETE_RESULT"
  | .crqInitOther _ _ _ _ => "CRQ_INIT_OTHER"
  | .crqTpmCommand _ _ _ => "CRQ_TPM_COMMAND"
  | .crqGetVersion _ _ _ => "CRQ_GET_VERSION"
  | .crqGetRtceBufferSize _ _ _ => "CRQ_GET_RTCE_BUFFER_SIZE"
  | .crqPrepareToSuspend _ _ _ => "CRQ_PREPARE_TO_SUSPEND"
  | .crqCmdOther _ _ _ _ => "CRQ_CMD_OTHER"
  | .crqTagOther _ _ _ _ _ => "CRQ_TAG_OTHER"
  | .beCompleteCrb _ _ => "BE_COMPLETE_CRB"
  | .beCompleteCrq _ _ => "BE_COMPLETE_CRQ"
  | .resetCrb => "RESET_CRB"
  | .resetCrq => "RESET_CRQ"
  | .construct _ _ => "CONSTRUCT"
  | .destroy => "DESTROY"
  | .quiesceCrq => "QUIESCE_CRQ"
  | .snapshotCrq => "SNAPSHOT_CRQ"
  | .restoreCrq _ => "RESTORE_CRQ"
  | .resumeCrq => "RESUME_CRQ"
  | .quiesceCrb => "QUIESCE_CRB"
  | .evtUndefined _ => "EVT_UNDEFINED"

/-! ## The host's numbering of a table word -/

/-- Byte `i` of a 128-bit message number, byte 0 in the most significant place: the table's own numbering of a CRQ
message (`valid` is bits 127:120). -/
def crqWordBytes (w : Nat) : List Byte :=
  Machine.toBe64 (BitVec.ofNat 64 (w / 2 ^ 64)) ++ Machine.toBe64 (BitVec.ofNat 64 w)

/-- The packet a table word stands for, by its width: 8 bits an event code, 16 bits (or up to 80, with V above the
header) an MMIO transaction, 128 bits a CRQ message. Operands the table gives no bits are blank (log 11). -/
def tablePacket (nbits w : Nat) : Packet :=
  if nbits ≤ 8 then .evt (BitVec.ofNat 8 w) blankOperands
  else if nbits ≤ 80 then .mmio (BitVec.ofNat 16 w) (BitVec.ofNat 64 (w / 2 ^ 16))
  else .crq (crqWordBytes w)

/-- The operation the decoder reads from a table word. -/
def decodeTableWord (nbits w : Nat) : Option Instr :=
  match decode (tablePacket nbits w) with
  | .ok i => some i
  | .error _ => none

end Sys2Proof
end

