-- ==== Sys2Proof/Machine/Types.lean ====
section
/-! DEFINITION. The parts of the machine's state (10_state.md): memories, the CRB device, the CRQ device, the host, the
backend and the observation logs. All plain data. -/

namespace Sys2Proof.Machine

/-- A byte memory in canonical form (`Memory.wf`): the addresses something has stored to, strictly rising. An unlisted
address holds no value of its own: reading it gives the free byte `Config.freeByte fill a`, the same one each time
("unspecified", R44, R47; log 6). -/
structure Memory where
  cells : List Host.Cell
  fill : Nat
  deriving DecidableEq, Repr

/-- The CRB register file, one field per word the spec names and stores (R22 to R41). LOC_CTRL, CTRL_REQ and
CTRL_CANCEL store nothing (R24, R30, R32) and the reserved words read 0 (R26, R41): `CrbRegs.word` reads them as 0. -/
structure CrbRegs where
  /-- 0x00 LOC_STATE (R23) -/
  locState : Word
  /-- 0x0C LOC_STS (R25) -/
  locSts : Word
  /-- 0x30 INTF_ID_LO (R27) -/
  intfIdLo : Word
  /-- 0x34 INTF_ID_HI (R28) -/
  intfIdHi : Word
  /-- 0x38 CTRL_EXT_LO (R29) -/
  ctrlExtLo : Word
  /-- 0x3C CTRL_EXT_HI (R29) -/
  ctrlExtHi : Word
  /-- 0x44 CTRL_STS (R31) -/
  ctrlSts : Word
  /-- 0x4C CTRL_START (R33) -/
  ctrlStart : Word
  /-- 0x50 INT_ENABLE (R34) -/
  intEnable : Word
  /-- 0x54 INT_STS (R35) -/
  intSts : Word
  /-- 0x58 CMD_SIZE (R36) -/
  cmdSize : Word
  /-- 0x5C CMD_LADDR (R37) -/
  cmdLaddr : Word
  /-- 0x60 CMD_HADDR (R38) -/
  cmdHaddr : Word
  /-- 0x64 RSP_SIZE (R39) -/
  rspSize : Word
  /-- 0x68 RSP_ADDR_LO (R40) -/
  rspAddrLo : Word
  /-- 0x6C RSP_ADDR_HI (R40) -/
  rspAddrHi : Word
  deriving DecidableEq, Repr

/-- CMD_SLOT (R43). Both pointers are the data window, so they are not stored. -/
structure CmdSlot where
  valid : Bool
  inLen : Nat
  outLen : Nat
  deriving DecidableEq, Repr

/-- The CRB device (R22 to R44). -/
structure Crb where
  regs : CrbRegs
  /-- N_crb (R43) -/
  nCrb : Nat
  slot : CmdSlot
  /-- DW (R44); its cells are keyed by the byte's index in the window -/
  dw : Memory
  deriving DecidableEq, Repr

/-- The CRQ device (R45 to R50). SCR_LEN is N_q at every step (R47, R48). -/
structure Crq where
  vstate : VState
  saved : CrqMsg
  /-- N_q (R48) -/
  nq : Nat
  /-- SCR (R47); its cells are keyed by the byte's index in the buffer -/
  scr : Memory
  versionCode : Word
  deferred : Bool
  deriving DecidableEq, Repr

/-- The host's state (R51). -/
structure HostState where
  snapPhase : Bool
  registry : Nat
  deriving DecidableEq, Repr

/-- BE_VERSION (R8, R225). -/
inductive BeVersion where
  | unspecified
  | v1_2
  | v2_0
  deriving DecidableEq, Repr

/-- An element of OUTSTANDING (R52, R221). -/
structure Request where
  frontEnd : FrontEnd
  inLen : Nat
  outLen : Nat
  deriving DecidableEq, Repr

/-- The backend's state and its two constants (R52, R220). -/
structure Backend where
  outstanding : List Request
  hadStartupError : Bool
  /-- B (R224) -/
  bufferSize : Nat
  /-- BE_VERSION (R225) -/
  version : BeVersion
  deriving DecidableEq, Repr

/-- An element of FAULTS: BusReject(off, n) (R249). -/
structure BusReject where
  off : Nat
  n : Nat
  deriving DecidableEq, Repr

/-- An element of SENT (R75). -/
structure SentMsg where
  bytes : List Byte
  ok : Bool
  deriving DecidableEq, Repr

/-- An element of DMA_LOG (R74). -/
inductive DmaEntry where
  | read (addr : Word) (n : Nat) (ok : Bool)
  | write (addr : Word) (bytes : List Byte) (ok : Bool)
  deriving DecidableEq, Repr

/-- An element of BE_LOG (R221, R223); a delivery carries the locality it passed (R228). -/
inductive BeCall where
  | deliver (locality inLen outLen : Nat)
  | cancel
  deriving DecidableEq, Repr

/-- A call of R226 made to the backend (the model's own log, log 18). -/
inductive ControlCall where
  | reset
  | startup (size : Nat)
  deriving DecidableEq, Repr

/-- The observation state of R53. -/
structure Logs where
  /-- FAULTS, a set: no repeats -/
  faults : List BusReject
  /-- REFUSED -/
  refused : Bool
  /-- SENT, oldest first -/
  sent : List SentMsg
  /-- DMA_LOG, oldest first -/
  dma : List DmaEntry
  /-- BE_LOG, oldest first -/
  be : List BeCall
  /-- Reset() and StartupTpm(size) calls, oldest first (the model's own) -/
  control : List ControlCall
  deriving DecidableEq, Repr

/-- What an agent raises and the device has not taken yet (log 1). -/
inductive Input where
  /-- A transaction on one of the device's ports. -/
  | packet (p : Packet)
  /-- The guest's memory at `addr`, `addr + 1`, ... becomes these bytes: a store by the guest into
  what the DMA port reads (R60 (2), R74; log 7). -/
  | guestStore (addr : Nat) (bytes : List Byte)
  deriving DecidableEq, Repr

end Sys2Proof.Machine
end

