-- ==== Sys2Proof/Machine/ResetValues.lean ====
section
/-! DEFINITION. The values construction (70_reset_and_hazards.md rule R270) and reset (rule R271) leave in the CRB
register file and in the two devices. -/

namespace Sys2Proof.Machine

/-- A memory nothing has stored to; its bytes are those of the draw `d`. -/
def Memory.free (d : Nat) : Memory := ⟨[], d⟩

/-- `REGS[*] <- 0` (R270). -/
def CrbRegs.zero : CrbRegs := ⟨0, 0, 0, 0, 0, 0, 0, 0, 0, 0, 0, 0, 0, 0, 0, 0⟩

/-- ADDR_BASE + REG_SIZE, the physical base of the data window (R37, R40). -/
def windowBase : Word := BitVec.ofNat 32 (Config.addrBase + Config.regSize)

/-- The reset value of every register word (R22 to R41, R271). -/
def CrbRegs.atReset : CrbRegs where
  locState := 0x00000080
  locSts := 0
  intfIdLo := 0x00025811
  intfIdHi := 0x00001014
  ctrlExtLo := 0
  ctrlExtHi := 0
  ctrlSts := 0x00000002
  ctrlStart := 0
  intEnable := 0
  intSts := 0
  cmdSize := BitVec.ofNat 32 Config.maxWindow
  cmdLaddr := windowBase
  cmdHaddr := 0
  rspSize := BitVec.ofNat 32 Config.maxWindow
  rspAddrLo := windowBase
  rspAddrHi := 0

/-- 16 zero bytes (R46). -/
def CrqMsg.zero : CrqMsg := ⟨0, 0, 0, 0, 0⟩

/-- The CRB device after construction; its window is the draw `d` (R270). N_crb is unset there: 0, which no rule
reads (R43; log 9). -/
def Crb.atConstruct (d : Nat) : Crb := ⟨CrbRegs.zero, 0, ⟨false, 0, 0⟩, Memory.free d⟩

/-- The CRQ device after construction; its scratch buffer is the draw `d` (R270). -/
def Crq.atConstruct (d : Nat) : Crq := ⟨.idle, CrqMsg.zero, Config.page, Memory.free d, 0, false⟩

/-- `N_crb = min(B, M)` (R9, R271). -/
def negotiateCrb (b : Nat) : Nat := min b Config.maxWindow

/-- `N_q = max(round_up(B, PAGE), PAGE)` (R9, R272, 90_conflicts.md C1). -/
def negotiateCrq (b : Nat) : Nat := max (roundUp b Config.page) Config.page

/-- The code a version is reported as: "0/1/2 encoding unspecified/1.2/2.0" (R49, R272). -/
def BeVersion.code : BeVersion → Word
  | .unspecified => 0
  | .v1_2 => 1
  | .v2_0 => 2

/-- VERSION_CODE at reset: 0 when the backend reports a startup error (R272). -/
def versionCodeOf (v : BeVersion) (startupError : Bool) : Word := if startupError then 0 else v.code

end Sys2Proof.Machine
end

