-- ==== Sys2Proof/Machine/State.lean ====
section
/-! DEFINITION. The machine's state, the reasons a step can stop, what a step answers its caller, and the state after
reset (10_state.md, 00_scope.md rule R15). -/

namespace Sys2Proof.Machine

/-- Why a step stops with a fault. Both are the spec's `stuck` (R15), not a device error: the block's own errors are
answers (`Reply`), and BusReject is recorded in FAULTS while the machine goes on (R15, R249). -/
inductive Fault where
  /-- Raised by `step` when no input is enabled: "stuck: no enabled step" (R15). Safe. -/
  | stuck
  /-- Raised by an operation that is run where its rule does not enable it: SNAPSHOT_CRQ while it is held (R203), a
  completion with no request of its front end outstanding (R138, R172). `step` never runs one. Safe. -/
  | notEnabled
  deriving DecidableEq, Repr

/-- Why the model gives a step no meaning (R15, `refuse`). Each is a refusal the spec itself names, but for
`notModelled`. -/
inductive Refusal where
  /-- Raised by a dispatch arm that has no meaning yet. No arm is left so. Safe. -/
  | notModelled (mnemonic : String)
  /-- Raised by EVT_UNDEFINED: "Every other code is not an event: the model refuses it" (R93, R99). Safe. -/
  | undefinedEvent (code : Byte)
  /-- Raised by `step` on a CRQ message of `n` bytes, not 16 (R101, D50). Safe. -/
  | crqLength (n : Nat)
  /-- Raised by every operation but CONSTRUCT where no device exists: after DESTROY "the device has no further steps"
  (R276); before CONSTRUCT there is none (R270, R275; log 13). Safe. -/
  | noDevice
  /-- Raised by an operation that exists only on the other front end (40_crb.md and 41_crq.md, first paragraphs;
  R206; log 13). Safe. -/
  | wrongFrontEnd
  /-- Raised by SNAPSHOT_CRQ, RESTORE_CRQ and RESUME_CRQ on a CRB device: "CRB has no SNAPSHOT, RESTORE or RESUME
  event; the model refuses them" (R206). Safe. -/
  | crbNotMigratable
  /-- Raised by a guest access before the first reset (R275, D53). Safe. -/
  | guestBeforeReset
  /-- Raised by a guest access, and by `step` on a store of the guest, while SNAP_PHASE = 1 (R201, D34; log 7). Safe. -/
  | guestWhilePaused
  /-- Raised by RESTORE_CRQ on a record of another N_q: RestoreSizeMismatch (R204, D35). Safe. -/
  | restoreSizeMismatch
  /-- Raised by CONSTRUCT of a CRB device with B < 6: "the model refuses the configuration" (R275, D16). Safe. -/
  | configuration
  /-- Raised by `step` in a run whose REFUSED mark is set (R15; log 3). Safe. -/
  | refusedRun
  deriving DecidableEq, Repr

/-- ConfigurationError's reason (R240, R270). -/
inductive ConfigReason where
  | duplicate
  | noBackend
  deriving DecidableEq, Repr

/-- The errors returned to the host (R240). -/
inductive HostError where
  | configuration (reason : ConfigReason)
  | migrationBlocked
  deriving DecidableEq, Repr

/-- What a step answers the agent that raised it. -/
inductive Reply where
  /-- No step has been taken yet. -/
  | none
  /-- An `n`-byte read's value, zero above its bytes (R64, R67). -/
  | value (n : Nat) (v : Long)
  /-- An MMIO write, done or ignored: it returns nothing. -/
  | written
  /-- BusReject: no value (R66). -/
  | busReject
  /-- Transport status OK (R160). -/
  | ok
  /-- Transport status BUSY (R160, R165). -/
  | busy
  /-- An event that returns nothing. -/
  | done
  /-- SNAPSHOT_CRQ's record (R203). -/
  | snapshot (rec : Snapshot)
  /-- An error returned to the host, with its code of R240 (R241, R245; log 25). -/
  | error (code : Nat) (e : HostError)
  /-- The step was refused, and the run is marked (R15). -/
  | refused (r : Refusal)
  deriving DecidableEq, Repr

/-- The machine: every piece of state of 10_state.md, and the model's own bookkeeping (inputs, draws, reply, and in
log the control calls). -/
structure State where
  /-- FRONTEND of the device that exists; none where none does (R8, R270, R276) -/
  frontEnd : Option FrontEnd
  /-- the first reset since construction has run (R275) -/
  wasReset : Bool
  /-- the CRB device (R22 to R44) -/
  crb : Crb
  /-- the CRQ device (R45 to R50) -/
  crq : Crq
  /-- SNAP_PHASE and REGISTRY (R51) -/
  host : HostState
  /-- OUTSTANDING, HAD_STARTUP_ERROR, B, BE_VERSION (R52) -/
  backend : Backend
  /-- FAULTS, REFUSED, SENT, DMA_LOG, BE_LOG (R53) -/
  log : Logs
  /-- guest memory as the DMA port sees it (R60, R74), keyed by its address (log 7) -/
  guestMem : Memory
  /-- inputs raised and not yet taken, oldest first (the model's own, log 1) -/
  inputs : List Input
  /-- the number of the next draw (the model's own, log 5) -/
  draws : Nat
  /-- what the last step answered (the model's own, log 18) -/
  reply : Reply
  deriving DecidableEq, Repr

/-- A machine after CONSTRUCT and its front end's first reset, for each value of the spec's open parameters FRONTEND,
B, BE_VERSION and HAD_STARTUP_ERROR_0 (`startupError0`, which that reset reads for VERSION_CODE: R226, R272) and of the
HAD_STARTUP_ERROR its StartupTpm left (`startupError`) (R270 to R275). The fields of the other front end stand at the
values its own reset would give (log 8). Draw 0 is the guest memory's, 1 the window's, 2 the scratch buffer's. -/
def State.afterReset (fe : FrontEnd) (b : Nat) (v : BeVersion) (startupError0 startupError : Bool) : State where
  frontEnd := some fe
  wasReset := true
  crb := ⟨CrbRegs.atReset, negotiateCrb b, ⟨false, 0, 0⟩, Memory.free 1⟩
  crq := ⟨.idle, CrqMsg.zero, negotiateCrq b, Memory.free 2, versionCodeOf v startupError0, false⟩
  host := ⟨false, 1⟩
  backend := ⟨[], startupError, b, v⟩
  log := ⟨[], false, [], [], [],
    match fe with
    | .crb => [.startup (negotiateCrb b)]
    | .crq => [.reset, .startup (negotiateCrq b)]⟩
  guestMem := Memory.free 0
  inputs := []
  draws := 3
  reply := .none

/-- The machine right after reset: the CRB front end, B = 4096, BE_VERSION = V2_0, HAD_STARTUP_ERROR_0 = 0
and a StartupTpm without error, each the model's choice (log 8). -/
def State.reset : State := State.afterReset .crb 4096 .v2_0 false false

end Sys2Proof.Machine
end

