-- ==== Sys2Proof/Machine/Flags.lean ====
section
/-! DEFINITION. The block's flags: the CRB status bits (10_state.md rule R54) and the rules that compute them. -/

namespace Sys2Proof.Machine

/-- CTRL_START.start, the in-flight marker (R33). -/
def CrbRegs.start (r : CrbRegs) : Bool := r.ctrlStart.getLsbD 0

/-- CTRL_STS.tpmSts, the sticky error bit (R31). -/
def CrbRegs.tpmSts (r : CrbRegs) : Bool := r.ctrlSts.getLsbD 0

/-- CTRL_STS.tpmIdle (R31). -/
def CrbRegs.tpmIdle (r : CrbRegs) : Bool := r.ctrlSts.getLsbD 1

/-- LOC_STATE.tpmEstablished (R23). -/
def CrbRegs.tpmEstablished (r : CrbRegs) : Bool := r.locState.getLsbD 0

/-- LOC_STATE.locAssigned (R23). -/
def CrbRegs.locAssigned (r : CrbRegs) : Bool := r.locState.getLsbD 1

/-- LOC_STATE.tpmRegValidSts (R23). -/
def CrbRegs.tpmRegValidSts (r : CrbRegs) : Bool := r.locState.getLsbD 7

/-- LOC_STS.Granted (R25). -/
def CrbRegs.granted (r : CrbRegs) : Bool := r.locSts.getLsbD 0

/-- LOC_STS.beenSeized (R25). -/
def CrbRegs.beenSeized (r : CrbRegs) : Bool := r.locSts.getLsbD 1

/-- Bit `i` of a register word set to `b`, every other bit as it was. -/
def putBit (w : Word) (i : Nat) (b : Bool) : Word :=
  if b then w ||| (1#32 <<< i) else w &&& ~~~(1#32 <<< i)

/-- CTRL_START.start <- b (R127, R138). -/
def CrbRegs.putStart (r : CrbRegs) (b : Bool) : CrbRegs := { r with ctrlStart := putBit r.ctrlStart 0 b }

/-- CTRL_STS.tpmSts <- 1 when the backend's result is not 0; it is never cleared here (R138). -/
def CrbRegs.noteResult (r : CrbRegs) (result : Word) : CrbRegs :=
  if result = 0 then r else { r with ctrlSts := putBit r.ctrlSts 0 true }

/-- CTRL_STS.tpmIdle <- b (R122, R123). -/
def CrbRegs.putIdle (r : CrbRegs) (b : Bool) : CrbRegs := { r with ctrlSts := putBit r.ctrlSts 1 b }

/-- The four writes of request-access (R129). -/
def CrbRegs.requestAccess (r : CrbRegs) : CrbRegs :=
  { r with
    locSts := putBit (putBit r.locSts 0 true) 1 false
    locState := putBit (putBit r.locState 1 true) 7 true }

end Sys2Proof.Machine
end

