-- ==== Sys2Proof/Machine/Memory.lean ====
section
/-! DEFINITION. Reading and writing a byte memory in its canonical form. -/

namespace Sys2Proof.Machine

/-- The cells of the bytes `bs` at `start`, `start + 1`, ... -/
def cellsFrom (start : Nat) : List Byte → List Host.Cell
  | [] => []
  | b :: bs => (start, b) :: cellsFrom (start + 1) bs

/-- The byte listed at address `a`, if one is. -/
def cellAt (a : Nat) : List Host.Cell → Option Byte
  | [] => none
  | c :: cs => if c.1 = a then some c.2 else cellAt a cs

/-- Addresses strictly rising from `low` on. -/
def risingFrom (low : Nat) : List Host.Cell → Bool
  | [] => true
  | c :: cs => low ≤ c.1 && risingFrom (c.1 + 1) cs

/-- The canonical form: addresses strictly rising. An unlisted address holds no value, so no entry can equal it. -/
def Memory.wf (m : Memory) : Bool := risingFrom 0 m.cells

/-- One byte: the listed one, else the free byte of this memory's draw (R44, R47, R74; log 6). -/
def Memory.read (m : Memory) (a : Nat) : Byte := (cellAt a m.cells).getD (Config.freeByte m.fill a)

/-- The `n` bytes at `a`, `a + 1`, ... -/
def Memory.readBytes (m : Memory) (a : Nat) : Nat → List Byte
  | 0 => []
  | n + 1 => m.read a :: m.readBytes (a + 1) n

/-- The bytes `bs` stored at `start`, `start + 1`, ...; every other byte as it was. -/
def Memory.write (m : Memory) (start : Nat) (bs : List Byte) : Memory :=
  match bs with
  | [] => m
  | _ :: _ =>
    { m with
      cells := m.cells.filter (·.1 < start) ++ cellsFrom start bs
        ++ m.cells.filter (start + bs.length ≤ ·.1) }

/-- A buffer whose first bytes are `bs` and whose other bytes are those of the draw `d`. -/
def Memory.ofBytes (d : Nat) (bs : List Byte) : Memory := ⟨cellsFrom 0 bs, d⟩

/-- A buffer resized to `n` bytes from `old`: kept bytes keep their values (R47, R272). -/
def Memory.resize (m : Memory) (old n : Nat) : Memory := { m with cells := m.cells.filter (·.1 < min old n) }

/-- Bytes `i`, `i + 1`, ... of the draw `d`, `n` of them. -/
def freeBytes (d i : Nat) : Nat → List Byte
  | 0 => []
  | n + 1 => Config.freeByte d i :: freeBytes d (i + 1) n

end Sys2Proof.Machine
end

