-- ==== Sys2Proof/Machine/Operands.lean ====
section
/-! DEFINITION. Operand forms: the register word an offset names, the sub-word of a register read, the bytes of a
data-window access, and the size field of a TPM header (20_memory.md rules R60 to R68, 10_state.md rule R22). -/

namespace Sys2Proof.Machine

/-- `REGS[o]`, the register word at byte offset `o`, a multiple of 4 (R13, R22). The command registers and every word
the table does not name read 0. -/
def CrbRegs.word (r : CrbRegs) : Nat → Word
  | 0x00 => r.locState
  | 0x08 => 0          -- LOC_CTRL, write-only (R24)
  | 0x0C => r.locSts
  | 0x30 => r.intfIdLo
  | 0x34 => r.intfIdHi
  | 0x38 => r.ctrlExtLo
  | 0x3C => r.ctrlExtHi
  | 0x40 => 0          -- CTRL_REQ, write-only (R30)
  | 0x44 => r.ctrlSts
  | 0x48 => 0          -- CTRL_CANCEL, write-only (R32)
  | 0x4C => r.ctrlStart
  | 0x50 => r.intEnable
  | 0x54 => r.intSts
  | 0x58 => r.cmdSize
  | 0x5C => r.cmdLaddr
  | 0x60 => r.cmdHaddr
  | 0x64 => r.rspSize
  | 0x68 => r.rspAddrLo
  | 0x6C => r.rspAddrHi
  | _ => 0             -- reserved words (R26, R41)

/-- `MemRead(off, n)` in the register window: the shifted sub-word of the enclosing word, zero-filled above it
(R64). -/
def CrbRegs.subWord (r : CrbRegs) (off n : Nat) : Word :=
  (r.word (off - off % 4) >>> (8 * (off % 4))) &&& BitVec.ofNat 32 (2 ^ (8 * n) - 1)

/-- W, the size of the data window: min(N_crb, ADDR_SIZE - REG_SIZE) (R9, R67). -/
def Crb.window (c : Crb) : Nat := min c.nCrb (Config.addrSize - Config.regSize)

/-- The index in the data window of a footprint offset (R67). -/
def windowIndex (off : BitVec 12) : Nat := off.toNat - Config.regSize

/-- Byte `k` of a data-window read that starts at index `a0`: DW's byte, or a draw where the index is past W or the
backend owns the window (R67). `d` is the draw's number. -/
def Crb.readByte (c : Crb) (d a0 k : Nat) : Byte :=
  if a0 + k < c.window ∧ c.regs.start = false then c.dw.read (a0 + k) else Config.freeByte d k

/-- Bytes `k`, `k + 1`, ... of a data-window read, `n` of them. -/
def Crb.readFrom (c : Crb) (d a0 k : Nat) : Nat → List Byte
  | 0 => []
  | n + 1 => c.readByte d a0 k :: c.readFrom d a0 (k + 1) n

/-- `MemWrite(off, n, v)` in the data window: byte `k` of `v` goes to DW[a0 + k] where that is below W, and nowhere
else (R67). -/
def Crb.writeData (c : Crb) (a0 n : Nat) (v : Long) : Crb :=
  { c with dw := c.dw.write a0 ((toLeFrom v 0 n).take (c.window - a0)) }

/-- `hdr_size(X) = be32(X[2], X[3], X[4], X[5])` (R63). -/
def hdrSize (x : Memory) : Nat := (be32 (x.read 2) (x.read 3) (x.read 4) (x.read 5)).toNat

end Sys2Proof.Machine
end

