-- ==== Sys2Proof/Machine/Ops.lean ====
section
/-! DEFINITION. The shared operations: answering, admitting and refusing a step, recording a fault, and the calls to
the backend, the DMA port and the send port (20_memory.md rules R74 and R75, 43_backend_channel.md rules R220 to R229,
60_exceptions.md). The block takes no traps and returns from none: "No trap entry exists. No error saves state, changes
a mode or transfers control" (R251, R252), so the error path is `State.answer` and `State.busReject`. An operation
whose name ends in `With` takes as an argument the answer the environment draws. -/

namespace Sys2Proof.Machine

/-- The outcome of one operation. -/
abbrev Outcome := Host.Outcome State Fault Refusal

/-! ## Answers, faults, refusals -/

/-- The step returns `r` to the agent that raised it. -/
def State.answer (s : State) (r : Reply) : State := { s with reply := r }

/-- The codes E_CONFIG and E_MIGRATION_BLOCKED (R240, D37, D47). -/
def HostError.code : HostError → Nat
  | .configuration _ => 1
  | .migrationBlocked => 2

/-- `raise <Error>(info)` of an error returned to the host: nothing but the answer changes (R13, R240, R241, R245). -/
def State.raise (s : State) (e : HostError) : State := s.answer (.error e.code e)

/-- One more draw has been used (log 5). -/
def State.drew (s : State) : State := { s with draws := s.draws + 1 }

/-- FAULTS with one more member: a set (R53). -/
def addFault (faults : List BusReject) (f : BusReject) : List BusReject :=
  if faults.contains f then faults else faults ++ [f]

/-- BusReject(off, n): recorded in FAULTS, no value, no device state changes, and the machine goes on (R15, R66,
R249; log 4). -/
def State.busReject (s : State) (off n : Nat) : State :=
  { s with log := { s.log with faults := addFault s.log.faults ⟨off, n⟩ }, reply := .busReject }

/-- The whole-state REFUSED mark is set (R15); nothing else of the block changes. -/
def State.markRefused (s : State) (r : Refusal) : State :=
  { s with log := { s.log with refused := true }, reply := .refused r }

/-- What stands against an operation of the front end `fe`: no device, or the other front end (log 13). -/
def deviceGate (fe : FrontEnd) (s : State) : Option Refusal :=
  match s.frontEnd with
  | none => some .noDevice
  | some f => if f = fe then none else some .wrongFrontEnd

/-- What stands against a guest access: besides `deviceGate`, that the first reset has not run (R275) and that the
guest is paused (R201). -/
def guestGate (fe : FrontEnd) (s : State) : Option Refusal :=
  match deviceGate fe s with
  | some r => some r
  | none =>
    if s.wasReset = false then some .guestBeforeReset
    else if s.host.snapPhase = true then some .guestWhilePaused
    else none

/-- What stands against SNAPSHOT, RESTORE and RESUME: no device, or a CRB device (R206). -/
def migrationGate (s : State) : Option Refusal :=
  match s.frontEnd with
  | none => some .noDevice
  | some .crb => some .crbNotMigratable
  | some .crq => none

/-- What stands against a store of the guest into its own memory: the guest is paused (R201, D34; log 7). -/
def storeGate (s : State) : Option Refusal := if s.host.snapPhase = true then some .guestWhilePaused else none

/-- The step that leads to `t`, unless something stands against it. -/
def gated (gate : Option Refusal) (t : State) : Outcome :=
  match gate with
  | some r => .refused r
  | none => .next t

/-- A guest write of the register window at `off` whose effect is `t`: a width over 4 is rejected before anything else
(R66, R120, R250). -/
def crbRegWrite (sz : BitVec 3) (off : Nat) (s t : State) : Outcome :=
  gated (guestGate .crb s)
    (if 4 < accessBytes sz then s.busReject off (accessBytes sz) else t.answer .written)

/-- A CRQ message dispatch whose effect is `t` and whose transport status is `status` (R160). -/
def crqDispatch (s t : State) (status : Reply) : Outcome := gated (guestGate .crq s) (t.answer status)

/-! ## The backend -/

/-- `Deliver(LOCALITY, ...)` (R221, R228). -/
def State.deliver (s : State) (fe : FrontEnd) (inLen outLen : Nat) : State :=
  { s with
    backend := { s.backend with outstanding := s.backend.outstanding ++ [⟨fe, inLen, outLen⟩] }
    log := { s.log with be := s.log.be ++ [.deliver Config.locality inLen outLen] } }

/-- `Cancel()`: advisory, OUTSTANDING is unchanged (R223). -/
def State.cancel (s : State) : State := { s with log := { s.log with be := s.log.be ++ [.cancel] } }

/-- OUTSTANDING holds a request of the front end `fe`. -/
def Backend.holds (b : Backend) (fe : FrontEnd) : Bool := b.outstanding.any (·.frontEnd == fe)

/-- OUTSTANDING without the `k`-th request of the front end `fe`. -/
def removeRequest (fe : FrontEnd) : Nat → List Request → List Request
  | _, [] => []
  | k, q :: qs =>
    if q.frontEnd = fe then
      match k with
      | 0 => qs
      | k + 1 => q :: removeRequest fe k qs
    else q :: removeRequest fe k qs

/-- How many requests of the front end `fe` are outstanding. -/
def countRequests (fe : FrontEnd) (qs : List Request) : Nat := (qs.filter (·.frontEnd == fe)).length

/-- OUTSTANDING after one request of `fe` completes: which one, where there are several, is draw `d`'s (R222;
log 15). -/
def Backend.retire (b : Backend) (fe : FrontEnd) (d : Nat) : Backend :=
  let n := countRequests fe b.outstanding
  { b with outstanding := removeRequest fe (if n ≤ 1 then 0 else Config.freeNat d % n) b.outstanding }

/-- `Reset()`: OUTSTANDING is unchanged (R226). -/
def State.backendReset (s : State) : State :=
  { s with log := { s.log with control := s.log.control ++ [.reset] } }

/-- `StartupTpm(size)` with the result `ok`: HAD_STARTUP_ERROR <- not ok (R226). -/
def State.startupTpmWith (s : State) (ok : Bool) (size : Nat) : State :=
  { s with
    backend := { s.backend with hadStartupError := !ok }
    log := { s.log with control := s.log.control ++ [.startup size] } }

/-- `StartupTpm(size)`; its result is a draw, and both front ends ignore it (R226, D33). -/
def State.startupTpm (s : State) (size : Nat) : State :=
  (s.startupTpmWith (Config.freeBool s.draws) size).drew

/-! ## The DMA port and the send port -/

/-- What `DmaRead(addr, n)` brings into a buffer when its status is `ok`: guest memory's bytes, else draws (R74). -/
def State.dmaBytes (s : State) (ok : Bool) (addr : Word) (n : Nat) : Memory :=
  if ok then Memory.ofBytes s.draws (s.guestMem.readBytes addr.toNat n) else Memory.free s.draws

/-- `DmaRead` appends (READ, addr, n, ok) to DMA_LOG (R74). -/
def State.logDmaRead (s : State) (ok : Bool) (addr : Word) (n : Nat) : State :=
  { s with log := { s.log with dma := s.log.dma ++ [.read addr n ok] } }

/-- `DmaWrite(addr, bytes)` with the status `ok`: guest memory updated if ok; after a failure the written range holds
draws (R74, D25; log 17). -/
def State.dmaWriteWith (s : State) (ok : Bool) (addr : Word) (bytes : List Byte) : State :=
  { s with
    guestMem := s.guestMem.write addr.toNat (if ok then bytes else freeBytes s.draws 0 bytes.length)
    log := { s.log with dma := s.log.dma ++ [.write addr bytes ok] }
    draws := s.draws + 1 }

/-- `SendCrq(msg)` with the status `ok`: (msg, ok) appended to SENT (R75). -/
def State.sendWith (s : State) (ok : Bool) (m : CrqMsg) : State :=
  { s with log := { s.log with sent := s.log.sent ++ [⟨crqBytes m, ok⟩] }, draws := s.draws + 1 }

/-- `SendCrq(msg)`; its status is a draw, and a failure changes no device state (R75). -/
def State.send (s : State) (m : CrqMsg) : State := s.sendWith (Config.freeBool s.draws) m

/-! ## CRQ messages and the completion delivery -/

/-- INIT, the init tag (41_crq.md). -/
abbrev tagInit : Byte := 0xC0
/-- CMD, the command tag, which is the response tag too (R97, 90_conflicts.md C3). -/
abbrev tagCmd : Byte := 0x80
/-- RESP, the bit that marks a response (R91). -/
abbrev respFlag : Byte := 0x80
/-- INIT_RESULT. -/
abbrev msgInitResult : Byte := 0x01
/-- INIT_COMPLETE_RESULT. -/
abbrev msgInitCompleteResult : Byte := 0x02
/-- GET_VERSION. -/
abbrev msgGetVersion : Byte := 0x01
/-- TPM_COMMAND. -/
abbrev msgTpmCommand : Byte := 0x02
/-- GET_RTCE_BUFFER_SIZE. -/
abbrev msgGetRtceBufferSize : Byte := 0x03
/-- PREPARE_TO_SUSPEND. -/
abbrev msgPrepareToSuspend : Byte := 0x04
/-- VTPM_ERROR. -/
abbrev msgVtpmError : Byte := 0xFF
/-- ERR_COPY_IN_FAILED. -/
abbrev errCopyInFailed : Word := 0x3
/-- ERR_COPY_OUT_FAILED. -/
abbrev errCopyOutFailed : Word := 0x4

/-- A vTPM-error response to `m`: valid 0x80, msg 0xFF, len 0, the code in data, reserved bytes echoed (R97, R243). -/
def vtpmError (m : CrqMsg) (code : Word) : CrqMsg :=
  { m with valid := tagCmd, msg := msgVtpmError, len := 0, data := code }

/-- The bytes DeliverResponse writes: `min(hdr_size(SCR), N_q)` of them (R173). -/
def Crq.responseLength (c : Crq) : Nat := min (hdrSize c.scr) c.nq

/-- The response DeliverResponse sends, by the status of its DMA write (R173). -/
def Crq.response (c : Crq) (dmaOk : Bool) : CrqMsg :=
  if dmaOk then
    { c.saved with valid := tagCmd, msg := msgTpmCommand ||| respFlag, len := trunc16 c.responseLength }
  else vtpmError c.saved errCopyOutFailed

/-- DeliverResponse() with the statuses of its DMA write and its send (R173). -/
def State.deliverResponseWith (s : State) (dmaOk sendOk : Bool) : State :=
  (s.dmaWriteWith dmaOk s.crq.saved.data (s.crq.scr.readBytes 0 s.crq.responseLength)).sendWith sendOk
    (s.crq.response dmaOk)

/-- DeliverResponse() (R173): the one completion-delivery procedure, of R172 and of the replay of R205. -/
def State.deliverResponse (s : State) : State :=
  s.deliverResponseWith (Config.freeBool s.draws) (Config.freeBool (s.draws + 1))

end Sys2Proof.Machine
end

