-- ==== Sys2Proof/Machine/Completions.lean ====
section
/-! DEFINITION. The backend completions (40_crb.md rule R138, 41_crq.md rules R172 and R173, 43_backend_channel.md rule
R222). -/

namespace Sys2Proof.Machine

/-- A completion of the front end `fe` is enabled: the device is that front end and OUTSTANDING holds a request of it
(R138, R172, R222). -/
def completionEnabled (fe : FrontEnd) (s : State) : Bool := s.frontEnd == some fe && s.backend.holds fe

/-- The state BE_COMPLETE_CRB leaves (R138): the output over the window, start and the slot cleared, tpmSts set on a
nonzero result. Output bytes not given are draws (R98; log 16). -/
def State.completeCrb (s : State) (r : Word) (out : List Byte) : State :=
  ({ s with
    backend := s.backend.retire .crb s.draws
    crb := { s.crb with
      dw := Memory.ofBytes s.draws (out.take s.crb.nCrb)
      regs := (s.crb.regs.putStart false).noteResult r
      slot := { s.crb.slot with valid := false } } }).drew

/-- BE_COMPLETE_CRB (R138). -/
def execBeCompleteCrb (r : Word) (out : List Byte) (s : State) : Outcome :=
  if completionEnabled .crb s then .next ((s.completeCrb r out).answer .done) else .fault .notEnabled

/-- The part of BE_COMPLETE_CRQ before the delivery decision (R172): the output over the scratch buffer, VSTATE
Completed. -/
def State.finishCrq (s : State) (out : List Byte) : State :=
  ({ s with
    backend := s.backend.retire .crq s.draws
    crq := { s.crq with scr := Memory.ofBytes s.draws (out.take s.crq.nq), vstate := .completed } }).drew

/-- The delivery decision of R172: deferred during the snapshot phase, else delivered. -/
def State.deferOrDeliver (s : State) : State :=
  if s.host.snapPhase then { s with crq := { s.crq with deferred := true } } else s.deliverResponse

/-- BE_COMPLETE_CRQ (R172); the result is not examined (R244, D31). -/
def execBeCompleteCrq (_r : Word) (out : List Byte) (s : State) : Outcome :=
  if completionEnabled .crq s then .next ((s.finishCrq out).deferOrDeliver.answer .done) else .fault .notEnabled

end Sys2Proof.Machine
end

