-- ==== Sys2Proof/Machine/Migration.lean ====
section
/-! DEFINITION. The migration coordinator (42_migration.md rules R200 to R208). -/

namespace Sys2Proof.Machine

/-- QUIESCE_CRQ (R200): SNAP_PHASE <- 1. -/
def execQuiesceCrq (s : State) : Outcome :=
  gated (deviceGate .crq s) (({ s with host := { s.host with snapPhase := true } }).answer .done)

/-- The record SNAPSHOT_CRQ returns (R203). -/
def State.record (s : State) : Snapshot where
  vstate := s.crq.vstate
  deferred := s.crq.deferred
  saved := s.crq.saved
  nq := s.crq.nq
  scr := s.crq.scr.readBytes 0 s.crq.nq

/-- SNAPSHOT_CRQ's hold is lifted: SNAP_PHASE = 1 and no CRQ request outstanding (R203, R208). -/
def snapshotReady (s : State) : Bool := s.host.snapPhase && !s.backend.holds .crq

/-- SNAPSHOT_CRQ (R203): the record is returned and no state changes; while held it is not enabled. -/
def execSnapshotCrq (s : State) : Outcome :=
  match migrationGate s with
  | some r => .refused r
  | none => if snapshotReady s then .next (s.answer (.snapshot s.record)) else .fault .notEnabled

/-- The state RESTORE_CRQ leaves (R204). -/
def State.restored (s : State) (rec : Snapshot) : State :=
  ({ s with
    crq := { s.crq with
      vstate := rec.vstate
      deferred := rec.deferred
      saved := rec.saved
      scr := Memory.ofBytes s.draws (rec.scr.take s.crq.nq) }
    host := { s.host with snapPhase := true } }).drew

/-- RESTORE_CRQ (R204): a record of another N_q is refused. -/
def execRestoreCrq (rec : Snapshot) (s : State) : Outcome :=
  match migrationGate s with
  | some r => .refused r
  | none =>
    if rec.nq = s.crq.nq then .next ((s.restored rec).answer .done) else .refused .restoreSizeMismatch

/-- The replay of a deferred delivery (R205). -/
def State.replay (s : State) : State :=
  if s.crq.deferred then
    let t := s.deliverResponse
    { t with crq := { t.crq with deferred := false } }
  else s

/-- RESUME_CRQ (R205): outside the snapshot phase nothing; else replay, then SNAP_PHASE <- 0. -/
def execResumeCrq (s : State) : Outcome :=
  gated (migrationGate s)
    (if s.host.snapPhase then
      (let t := s.replay
       ({ t with host := { t.host with snapPhase := false } }).answer .done)
     else s.answer .done)

/-- QUIESCE_CRB (R206): MigrationBlocked is returned and no state changes. -/
def execQuiesceCrb (s : State) : Outcome := gated (deviceGate .crb s) (s.raise .migrationBlocked)

end Sys2Proof.Machine
end

