-- ==== Sys2Proof/Machine/Agents.lean ====
section
/-! DEFINITION. The agents, and which input the next step takes (00_scope.md rules R6 and R13 `hold until`, log 1,
log 2). -/

namespace Sys2Proof.Machine

/-- The agents of R6 that take steps. -/
inductive Agent where
  | guest
  | backend
  | host
  deriving DecidableEq, Repr

/-- The agent that raises an input: GUEST on the MMIO bus, the CRQ queue and its own memory (log 7), BACKEND the two
completions, HOST every other event (R6). -/
def agentOf : Input → Agent
  | .guestStore _ _ => .guest
  | .packet (.mmio _ _) => .guest
  | .packet (.crq _) => .guest
  | .packet (.evt e _) => if e = 0x01 ∨ e = 0x02 then .backend else .host

/-- The step of an operation is enabled: a completion needs a request (R138, R172), a snapshot of a CRQ device its hold
lifted (R203). Every other operation is always enabled, if only to be refused. -/
def enabled (i : Instr) (s : State) : Bool :=
  match i with
  | .beCompleteCrb _ _ => completionEnabled .crb s
  | .beCompleteCrq _ _ => completionEnabled .crq s
  | .snapshotCrq => s.frontEnd != some .crq || snapshotReady s
  | .crbRdReg _ _ | .crbWrCmdReady _ | .crbWrGoIdle _ | .crbWrCtrlReqOther _ _ | .crbWrCancelInvoke _
  | .crbWrCancelOther _ _ | .crbWrStartInvoke _ | .crbWrStartOther _ _ | .crbWrLocRequestAccess _
  | .crbWrLocRelinquish _ | .crbWrLocResetEstablishment _ | .crbWrLocCtrlOther _ _ | .crbWrIgnored _ _ _
  | .crbRdData _ _ | .crbWrData _ _ _ | .crqInitResult _ _ _ | .crqInitCompleteResult _ _ _
  | .crqInitOther _ _ _ _ | .crqTpmCommand _ _ _ | .crqGetVersion _ _ _ | .crqGetRtceBufferSize _ _ _
  | .crqPrepareToSuspend _ _ _ | .crqCmdOther _ _ _ _ | .crqTagOther _ _ _ _ _ | .resetCrb | .resetCrq
  | .construct _ _ | .destroy | .quiesceCrq | .restoreCrq _ | .resumeCrq | .quiesceCrb | .evtUndefined _ => true

/-- An input whose step is enabled. A packet that decodes to nothing is, so that it is refused (R101). -/
def inputReady (s : State) : Input → Bool
  | .guestStore _ _ => true
  | .packet p =>
    match decode p with
    | .ok i => enabled i s
    | .error _ => true

/-- The first input that is enabled, and the list without it. A held input waits in its place and holds up no other:
"held until quiesce" (95_test_vectors.md V2.9), where QUIESCE is an input of the same agent (log 2). -/
def takeReady (s : State) : List Input → Option (Input × List Input)
  | [] => none
  | x :: xs =>
    if inputReady s x then some (x, xs)
    else
      match takeReady s xs with
      | none => none
      | some (y, ys) => some (y, x :: ys)

/-- The input the next step takes. -/
def nextInput (s : State) : Option (Input × List Input) := takeReady s s.inputs

end Sys2Proof.Machine
end

