-- ==== Sys2Proof/Machine/CrbData.lean ====
section
/-! DEFINITION. The data window of the CRB front end (40_crb.md rules R134 and R135, 20_memory.md rules R67 and R68).
The header's S field gives widths 1 to 8 only, so BusReject for n > 8 cannot arise (95_test_vectors.md V2.1). -/

namespace Sys2Proof.Machine

/-- CRB_RD_DATA (R134): bytes of the window, or draws (R67). One draw number is used, whether or not a byte is drawn
(log 5). -/
def execCrbRdData (sz : BitVec 3) (off : BitVec 12) (s : State) : Outcome :=
  gated (guestGate .crb s)
    (s.drew.answer (.value (accessBytes sz)
      (leValue (s.crb.readFrom s.draws (windowIndex off) 0 (accessBytes sz)))))

/-- CRB_WR_DATA (R135): performed whether or not a command is in flight; bytes at or past W are dropped. -/
def execCrbWrData (sz : BitVec 3) (off : BitVec 12) (v : Long) (s : State) : Outcome :=
  gated (guestGate .crb s)
    (({ s with crb := s.crb.writeData (windowIndex off) (accessBytes sz) v }).answer .written)

end Sys2Proof.Machine
end

