-- ==== Sys2Proof/Machine/CrbRegisters.lean ====
section
/-! DEFINITION. The register window of the CRB front end: reads, the control-request, cancel, start and locality
writes, and the ignored writes (40_crb.md rules R121 to R133). -/

namespace Sys2Proof.Machine

/-- CRB_RD_REG (R121): `MemRead(OFF, n)` of R64; n over 4 is BusReject. -/
def execCrbRdReg (sz : BitVec 3) (off : BitVec 8) (s : State) : Outcome :=
  gated (guestGate .crb s)
    (if 4 < accessBytes sz then s.busReject off.toNat (accessBytes sz)
     else s.answer (.value (accessBytes sz) ((s.crb.regs.subWord off.toNat (accessBytes sz)).setWidth 64)))

/-- CRB_WR_CMD_READY (R122): tpmIdle <- 0. -/
def execCrbWrCmdReady (sz : BitVec 3) (s : State) : Outcome :=
  crbRegWrite sz 0x040 s { s with crb := { s.crb with regs := s.crb.regs.putIdle false } }

/-- CRB_WR_GO_IDLE (R123): tpmIdle <- 1. -/
def execCrbWrGoIdle (sz : BitVec 3) (s : State) : Outcome :=
  crbRegWrite sz 0x040 s { s with crb := { s.crb with regs := s.crb.regs.putIdle true } }

/-- CRB_WR_CTRL_REQ_OTHER (R124): no effect. -/
def execCrbWrCtrlReqOther (sz : BitVec 3) (_v : Long) (s : State) : Outcome := crbRegWrite sz 0x040 s s

/-- CRB_WR_CANCEL_INVOKE (R125): a started command has a Cancel() forwarded; start stays. -/
def execCrbWrCancelInvoke (sz : BitVec 3) (s : State) : Outcome :=
  crbRegWrite sz 0x048 s (if s.crb.regs.start then s.cancel else s)

/-- CRB_WR_CANCEL_OTHER (R126): no effect. -/
def execCrbWrCancelOther (sz : BitVec 3) (_v : Long) (s : State) : Outcome := crbRegWrite sz 0x048 s s

/-- The command start of R127: start <- 1, the slot filled, the request delivered. -/
def State.startCommand (s : State) : State :=
  let inLen := min (hdrSize s.crb.dw) s.crb.nCrb
  ({ s with crb := { s.crb with
      regs := s.crb.regs.putStart true
      slot := ⟨true, inLen, s.crb.nCrb⟩ } }).deliver .crb inLen s.crb.nCrb

/-- CRB_WR_START_INVOKE (R127): starts the command unless one is in flight. -/
def execCrbWrStartInvoke (sz : BitVec 3) (s : State) : Outcome :=
  crbRegWrite sz 0x04C s (if s.crb.regs.start then s else s.startCommand)

/-- CRB_WR_START_OTHER (R128): no effect. -/
def execCrbWrStartOther (sz : BitVec 3) (_v : Long) (s : State) : Outcome := crbRegWrite sz 0x04C s s

/-- CRB_WR_LOC_REQUEST_ACCESS (R129). -/
def execCrbWrLocRequestAccess (sz : BitVec 3) (s : State) : Outcome :=
  crbRegWrite sz 0x008 s { s with crb := { s.crb with regs := s.crb.regs.requestAccess } }

/-- CRB_WR_LOC_RELINQUISH (R130): accepted, no effect. -/
def execCrbWrLocRelinquish (sz : BitVec 3) (s : State) : Outcome := crbRegWrite sz 0x008 s s

/-- CRB_WR_LOC_RESET_ESTABLISHMENT (R131): accepted, no effect. -/
def execCrbWrLocResetEstablishment (sz : BitVec 3) (s : State) : Outcome := crbRegWrite sz 0x008 s s

/-- CRB_WR_LOC_CTRL_OTHER (R132): no effect. -/
def execCrbWrLocCtrlOther (sz : BitVec 3) (_v : Long) (s : State) : Outcome := crbRegWrite sz 0x008 s s

/-- CRB_WR_IGNORED (R133): a write at any other offset of the register window has no effect. -/
def execCrbWrIgnored (sz : BitVec 3) (off : BitVec 8) (_v : Long) (s : State) : Outcome :=
  crbRegWrite sz off.toNat s s

end Sys2Proof.Machine
end

