-- ==== Sys2Proof/Machine/CrqMessages.lean ====
section
/-! DEFINITION. CRQ message dispatch (41_crq.md rules R160 to R171). -/

namespace Sys2Proof.Machine

/-- CRQ_INIT_RESULT (R162): a zeroed message with the same tag and sub-message is sent. -/
def execCrqInitResult (_len : Half) (_data : Word) (_rsv : Long) (s : State) : Outcome :=
  crqDispatch s (s.send ⟨tagInit, msgInitResult, 0, 0, 0⟩) .ok

/-- CRQ_INIT_COMPLETE_RESULT (R163). -/
def execCrqInitCompleteResult (_len : Half) (_data : Word) (_rsv : Long) (s : State) : Outcome :=
  crqDispatch s (s.send ⟨tagInit, msgInitCompleteResult, 0, 0, 0⟩) .ok

/-- CRQ_INIT_OTHER (R164): ignored. -/
def execCrqInitOther (_msg : Byte) (_len : Half) (_data : Word) (_rsv : Long) (s : State) : Outcome :=
  crqDispatch s s .ok

/-- The acceptance of a command message (R165), with the statuses of its DMA read and of the send that follows a
failed one: SAVED, VSTATE, the copy-in, Deliver, and the copy-in error response, in that order. -/
def State.acceptCommandWith (s : State) (m : CrqMsg) (dmaOk sendOk : Bool) : State :=
  let scr := s.dmaBytes dmaOk m.data s.crq.nq
  let s1 := ({ s with crq := { s.crq with saved := m, vstate := .executing, scr := scr } }).logDmaRead
    dmaOk m.data s.crq.nq
  let s2 := (s1.deliver .crq (min (hdrSize scr) s.crq.nq) s.crq.nq).drew
  if dmaOk then s2 else s2.sendWith sendOk (vtpmError m errCopyInFailed)

/-- The acceptance of a command message; the statuses are draws (R74, R75). -/
def State.acceptCommand (s : State) (m : CrqMsg) : State :=
  s.acceptCommandWith m (Config.freeBool s.draws) (Config.freeBool (s.draws + 1))

/-- CRQ_TPM_COMMAND (R165): BUSY while Executing, with nothing changed; else the message is accepted. -/
def execCrqTpmCommand (len : Half) (data : Word) (rsv : Long) (s : State) : Outcome :=
  if s.crq.vstate = .executing then crqDispatch s s .busy
  else crqDispatch s (s.acceptCommand ⟨tagCmd, msgTpmCommand, len, data, rsv⟩) .ok

/-- CRQ_GET_VERSION (R167): len 0, data VERSION_CODE, reserved bytes echoed. -/
def execCrqGetVersion (_len : Half) (_data : Word) (rsv : Long) (s : State) : Outcome :=
  crqDispatch s (s.send ⟨tagCmd, msgGetVersion ||| respFlag, 0, s.crq.versionCode, rsv⟩) .ok

/-- CRQ_GET_RTCE_BUFFER_SIZE (R168): len trunc16(N_q), data and reserved bytes echoed. -/
def execCrqGetRtceBufferSize (_len : Half) (data : Word) (rsv : Long) (s : State) : Outcome :=
  crqDispatch s (s.send ⟨tagCmd, msgGetRtceBufferSize ||| respFlag, trunc16 s.crq.nq, data, rsv⟩) .ok

/-- CRQ_PREPARE_TO_SUSPEND (R169): everything echoed but the response flag. -/
def execCrqPrepareToSuspend (len : Half) (data : Word) (rsv : Long) (s : State) : Outcome :=
  crqDispatch s (s.send ⟨tagCmd, msgPrepareToSuspend ||| respFlag, len, data, rsv⟩) .ok

/-- CRQ_CMD_OTHER (R170): ignored. -/
def execCrqCmdOther (_msg : Byte) (_len : Half) (_data : Word) (_rsv : Long) (s : State) : Outcome :=
  crqDispatch s s .ok

/-- CRQ_TAG_OTHER (R171): ignored. -/
def execCrqTagOther (_valid _msg : Byte) (_len : Half) (_data : Word) (_rsv : Long) (s : State) : Outcome :=
  crqDispatch s s .ok

end Sys2Proof.Machine
end

