-- ==== Sys2Proof/Machine/Lifecycle.lean ====
section
/-! DEFINITION. Construction, reset and destruction, and the undefined event (70_reset_and_hazards.md rules R270 to
R276, 30_encoding.md rule R99). -/

namespace Sys2Proof.Machine

/-- The device CONSTRUCT realises (R270). -/
def State.constructed (s : State) (fe : FrontEnd) : State :=
  let t : State :=
    { s with
      frontEnd := some fe
      wasReset := false
      host := ⟨false, s.host.registry + 1⟩ }
  (match fe with
    | .crb => { t with crb := Crb.atConstruct s.draws }
    | .crq => { t with crq := Crq.atConstruct s.draws }).drew

/-- CONSTRUCT (R270): DUPLICATE before NO_BACKEND; a CRB configuration with B < 6 is refused (R275, D16; log 14). -/
def execConstruct (fe : FrontEnd) (backendPresent : Bool) (s : State) : Outcome :=
  if 1 ≤ s.host.registry then .next (s.raise (.configuration .duplicate))
  else if backendPresent = false then .next (s.raise (.configuration .noBackend))
  else if fe = .crb ∧ s.backend.bufferSize < 6 then .refused .configuration
  else .next ((s.constructed fe).answer .done)

/-- DESTROY (R276): the device has no further steps and an outstanding request is dropped (log 24). -/
def execDestroy (s : State) : Outcome :=
  match s.frontEnd with
  | none => .refused .noDevice
  | some _ =>
    .next (({ s with
      frontEnd := none
      wasReset := false
      host := { s.host with registry := s.host.registry - 1 }
      backend := { s.backend with outstanding := [] } }).answer .done)

/-- The state RESET_CRB leaves (R271). OUTSTANDING and DW are untouched (R273, R44). -/
def State.resetCrb (s : State) : State :=
  ({ s with
    wasReset := true
    crb := { s.crb with
      nCrb := negotiateCrb s.backend.bufferSize
      regs := CrbRegs.atReset
      slot := { s.crb.slot with valid := false } } }).startupTpm (negotiateCrb s.backend.bufferSize)

/-- RESET_CRB (R271). -/
def execResetCrb (s : State) : Outcome := gated (deviceGate .crb s) (s.resetCrb.answer .done)

/-- The state RESET_CRQ leaves (R272): the version and the startup error are read before the backend is reset and
started. SAVED, SNAP_PHASE and OUTSTANDING are untouched. -/
def State.resetCrq (s : State) : State :=
  let n := negotiateCrq s.backend.bufferSize
  (State.backendReset { s with
    wasReset := true
    crq := { s.crq with
      versionCode := versionCodeOf s.backend.version s.backend.hadStartupError
      nq := n
      scr := s.crq.scr.resize s.crq.nq n
      vstate := .idle
      deferred := false } }).startupTpm n

/-- RESET_CRQ (R272). -/
def execResetCrq (s : State) : Outcome := gated (deviceGate .crq s) (s.resetCrq.answer .done)

/-- EVT_UNDEFINED (R93, R99): refused. -/
def execEvtUndefined (code : Byte) (_s : State) : Outcome := .refused (.undefinedEvent code)

end Sys2Proof.Machine
end

