-- ==== Sys2Proof/Machine/Dispatch.lean ====
section
/-! DEFINITION. One arm per row of spec/opcode_table.json: the meaning of each operation. -/

namespace Sys2Proof.Machine

/-- The meaning of a decoded operation. -/
def exec (i : Instr) (s : State) : Host.Outcome State Fault Refusal :=
  match i with
  | .crbRdReg sz off => Sys2Proof.Machine.execCrbRdReg sz off s
  | .crbWrCmdReady sz => Sys2Proof.Machine.execCrbWrCmdReady sz s
  | .crbWrGoIdle sz => Sys2Proof.Machine.execCrbWrGoIdle sz s
  | .crbWrCtrlReqOther sz v => Sys2Proof.Machine.execCrbWrCtrlReqOther sz v s
  | .crbWrCancelInvoke sz => Sys2Proof.Machine.execCrbWrCancelInvoke sz s
  | .crbWrCancelOther sz v => Sys2Proof.Machine.execCrbWrCancelOther sz v s
  | .crbWrStartInvoke sz => Sys2Proof.Machine.execCrbWrStartInvoke sz s
  | .crbWrStartOther sz v => Sys2Proof.Machine.execCrbWrStartOther sz v s
  | .crbWrLocRequestAccess sz => Sys2Proof.Machine.execCrbWrLocRequestAccess sz s
  | .crbWrLocRelinquish sz => Sys2Proof.Machine.execCrbWrLocRelinquish sz s
  | .crbWrLocResetEstablishment sz => Sys2Proof.Machine.execCrbWrLocResetEstablishment sz s
  | .crbWrLocCtrlOther sz v => Sys2Proof.Machine.execCrbWrLocCtrlOther sz v s
  | .crbWrIgnored sz off v => Sys2Proof.Machine.execCrbWrIgnored sz off v s
  | .crbRdData sz off => Sys2Proof.Machine.execCrbRdData sz off s
  | .crbWrData sz off v => Sys2Proof.Machine.execCrbWrData sz off v s
  | .crqInitResult len data rsv => Sys2Proof.Machine.execCrqInitResult len data rsv s
  | .crqInitCompleteResult len data rsv => Sys2Proof.Machine.execCrqInitCompleteResult len data rsv s
  | .crqInitOther msg len data rsv => Sys2Proof.Machine.execCrqInitOther msg len data rsv s
  | .crqTpmCommand len data rsv => Sys2Proof.Machine.execCrqTpmCommand len data rsv s
  | .crqGetVersion len data rsv => Sys2Proof.Machine.execCrqGetVersion len data rsv s
  | .crqGetRtceBufferSize len data rsv => Sys2Proof.Machine.execCrqGetRtceBufferSize len data rsv s
  | .crqPrepareToSuspend len data rsv => Sys2Proof.Machine.execCrqPrepareToSuspend len data rsv s
  | .crqCmdOther msg len data rsv => Sys2Proof.Machine.execCrqCmdOther msg len data rsv s
  | .crqTagOther valid msg len data rsv => Sys2Proof.Machine.execCrqTagOther valid msg len data rsv s
  | .beCompleteCrb r out => Sys2Proof.Machine.execBeCompleteCrb r out s
  | .beCompleteCrq r out => Sys2Proof.Machine.execBeCompleteCrq r out s
  | .resetCrb => Sys2Proof.Machine.execResetCrb s
  | .resetCrq => Sys2Proof.Machine.execResetCrq s
  | .construct fe backendPresent => Sys2Proof.Machine.execConstruct fe backendPresent s
  | .destroy => Sys2Proof.Machine.execDestroy s
  | .quiesceCrq => Sys2Proof.Machine.execQuiesceCrq s
  | .snapshotCrq => Sys2Proof.Machine.execSnapshotCrq s
  | .restoreCrq rec => Sys2Proof.Machine.execRestoreCrq rec s
  | .resumeCrq => Sys2Proof.Machine.execResumeCrq s
  | .quiesceCrb => Sys2Proof.Machine.execQuiesceCrb s
  | .evtUndefined code => Sys2Proof.Machine.execEvtUndefined code s

end Sys2Proof.Machine
end

