-- ==== Sys2Proof/Machine/Run.lean ====
section
/-! DEFINITION. What a step adds around `exec`: a refusal marks the run (00_scope.md rule R15), the guest's own stores
change guest memory, and what it takes to bring one table word to the device. -/

namespace Sys2Proof.Machine

/-- A refused step sets the REFUSED mark of the state `s` it was taken in (R15; log 3). -/
def settle (s : State) (o : Outcome) : Outcome :=
  match o with
  | .next t => .next t
  | .fault f => .fault f
  | .refused r => .next (s.markRefused r)

/-- The step of one packet: decoded (R99) and run, or refused at the transport boundary (R101). -/
def runPacket (p : Packet) (s : State) : Outcome :=
  match decode p with
  | .ok i => settle s (exec i s)
  | .error (.crqLength n) => .next (s.markRefused (.crqLength n))

/-- The guest's memory changes under the guest's own stores (log 7). -/
def State.guestStore (s : State) (addr : Nat) (bytes : List Byte) : State :=
  { s with guestMem := s.guestMem.write addr bytes }

/-- The step that takes the input `x`. A store of the guest is refused while the guest is paused (R201, D34) and asks
for no device and no reset, since it is no access of the device (log 7). -/
def runInput (x : Input) (s : State) : Outcome :=
  match x with
  | .packet p => runPacket p s
  | .guestStore addr bytes => settle s (gated (storeGate s) (s.guestStore addr bytes))

/-- The front end an operation belongs to. -/
def frontEndOf : Instr → Option FrontEnd
  | .crbRdReg _ _ | .crbWrCmdReady _ | .crbWrGoIdle _ | .crbWrCtrlReqOther _ _ | .crbWrCancelInvoke _
  | .crbWrCancelOther _ _ | .crbWrStartInvoke _ | .crbWrStartOther _ _ | .crbWrLocRequestAccess _
  | .crbWrLocRelinquish _ | .crbWrLocResetEstablishment _ | .crbWrLocCtrlOther _ _ | .crbWrIgnored _ _ _
  | .crbRdData _ _ | .crbWrData _ _ _ | .beCompleteCrb _ _ | .resetCrb | .quiesceCrb => some .crb
  | .crqInitResult _ _ _ | .crqInitCompleteResult _ _ _ | .crqInitOther _ _ _ _ | .crqTpmCommand _ _ _
  | .crqGetVersion _ _ _ | .crqGetRtceBufferSize _ _ _ | .crqPrepareToSuspend _ _ _ | .crqCmdOther _ _ _ _
  | .crqTagOther _ _ _ _ _ | .beCompleteCrq _ _ | .resetCrq | .quiesceCrq | .snapshotCrq | .restoreCrq _
  | .resumeCrq => some .crq
  | .construct _ _ | .destroy | .evtUndefined _ => none

/-- The device of the front end whose port the operation arrives on (log 1). -/
def State.selectFrontEnd (s : State) (i : Instr) : State :=
  match frontEndOf i with
  | none => s
  | some fe => { s with frontEnd := some fe }

/-- A request of `fe` outstanding, as a completion needs (log 1). -/
def State.withRequest (s : State) (fe : FrontEnd) (n : Nat) : State :=
  if s.backend.holds fe then s
  else { s with backend := { s.backend with outstanding := s.backend.outstanding ++ [⟨fe, 0, n⟩] } }

/-- What it takes for the operation's step to be the next one: its front end selected, and for a completion or a
snapshot the condition it is held for (log 1). -/
def State.arrange (s : State) (i : Instr) : State :=
  let t := s.selectFrontEnd i
  if enabled i t then t
  else if frontEndOf i = some .crb then t.withRequest .crb t.crb.nCrb
  else if i = .snapshotCrq then { t with host := { t.host with snapPhase := true } }
  else t.withRequest .crq t.crq.nq

/-- The state with the packet `p` as its first input, and what its step takes. -/
def State.withPacket (s : State) (p : Packet) : State :=
  match decode p with
  | .ok i => { s.arrange i with inputs := .packet p :: s.inputs }
  | .error _ => { s with inputs := .packet p :: s.inputs }

end Sys2Proof.Machine
end

