-- ==== Sys2Proof/Machine/Step.lean ====
section
/-! DEFINITION. One step of the machine: the next input is taken and run to its end (00_scope.md rules R6, R7 and R15,
10_state.md rule R21). -/

namespace Sys2Proof.Machine

/-- One step. A run whose REFUSED mark is set has no meaning (log 3); with no input enabled the machine is stuck
(R15). -/
def step (s : State) : Host.Outcome State Fault Refusal :=
  if s.log.refused then .refused .refusedRun
  else
    match nextInput s with
    | none => .fault .stuck
    | some (x, rest) => runInput x { s with inputs := rest }

/-- The state with a table word as its next input (log 1). -/
def State.withFetchWord (s : State) (nbits w : Nat) : State := s.withPacket (tablePacket nbits w)

end Sys2Proof.Machine
end

