-- ==== Sys2Proof/Safety.lean ====
section
/-! DEFINITION. The terms statements are made in: when a guest access is admitted, the legal register files, and the
invariant of the machine. -/

namespace Sys2Proof.Machine

/-- Byte `k` of a value, byte 0 the least significant (R10). -/
abbrev byteOf (v : Long) (k : Nat) : Byte := v.extractLsb' (8 * k) 8

/-- Byte `k` of a register word. -/
abbrev wordByte (w : Word) (k : Nat) : Byte := w.extractLsb' (8 * k) 8

/-- The size field of the header in a buffer: its bytes 2 to 5, big-endian (R63). -/
abbrev headerSize (x : Memory) : Nat := (x.read 2 ++ x.read 3 ++ x.read 4 ++ x.read 5 : BitVec 32).toNat

/-- A guest access of the front end `fe` is admitted: the device is that front end, reset since its construction (R275),
and the guest is not paused (R201). -/
abbrev State.GuestReady (s : State) (fe : FrontEnd) : Prop :=
  s.frontEnd = some fe ∧ s.wasReset = true ∧ s.host.snapPhase = false

/-- The registers no rule but construction and reset writes are at their reset values (R42). -/
abbrev CrbRegs.ConstantsAtReset (r : CrbRegs) : Prop :=
  r = { CrbRegs.atReset with
    locState := r.locState, locSts := r.locSts, ctrlSts := r.ctrlSts, ctrlStart := r.ctrlStart }

/-- A register file in use: the constants at their reset values, and only the defined bits of the others set (R23, R25,
R31, R33, R54). -/
abbrev CrbRegs.Live (r : CrbRegs) : Prop :=
  r.ConstantsAtReset ∧ (r.locState = 0x80 ∨ r.locState = 0x82) ∧ (r.locSts = 0 ∨ r.locSts = 1)
    ∧ (r.ctrlSts = 0 ∨ r.ctrlSts = 1 ∨ r.ctrlSts = 2 ∨ r.ctrlSts = 3) ∧ (r.ctrlStart = 0 ∨ r.ctrlStart = 1)

/-- A delivery passes locality 0 and lengths of at most 2^32 - 1, the input's no greater than the output's (R102,
R228). -/
def BeCall.lengthsFit : BeCall → Bool
  | .deliver locality inLen outLen => locality == 0 && decide (inLen ≤ outLen) && decide (outLen ≤ Config.maxLength)
  | .cancel => true

/-- Every memory is in canonical form, and a buffer lists no byte past its size (R44, R47). -/
abbrev State.MemoriesWf (s : State) : Prop :=
  s.crb.dw.wf = true ∧ s.crq.scr.wf = true ∧ s.guestMem.wf = true
    ∧ (∀ c ∈ s.crb.dw.cells, c.1 < Config.maxWindow) ∧ (∀ c ∈ s.crq.scr.cells, c.1 < s.crq.nq)

/-- The sizes: N_crb is at most M and N_q at least PAGE (R43, R48), and a device that was reset has the negotiated one
(R9, R271, R272). -/
abbrev State.SizesWf (s : State) : Prop :=
  s.crb.nCrb ≤ Config.maxWindow ∧ Config.page ≤ s.crq.nq
    ∧ (s.frontEnd = some .crb → s.wasReset = true → s.crb.nCrb = negotiateCrb s.backend.bufferSize)
    ∧ (s.frontEnd = some .crq → s.wasReset = true → s.crq.nq = negotiateCrq s.backend.bufferSize)
    ∧ (s.frontEnd = some .crb → 6 ≤ s.backend.bufferSize)

/-- The register file is that of construction or one in use, and one in use once a CRB device was reset (R42, R136). -/
abbrev State.RegsWf (s : State) : Prop :=
  (s.crb.regs = CrbRegs.zero ∨ s.crb.regs.Live) ∧ (s.frontEnd = some .crb → s.wasReset = true → s.crb.regs.Live)

/-- The command slot mirrors the start bit (R139), and a started CRB device has a request outstanding (R229). -/
abbrev State.SlotWf (s : State) : Prop :=
  s.crb.regs.start = s.crb.slot.valid
    ∧ (s.frontEnd = some .crb → s.crb.regs.start = true → s.backend.holds .crb = true)

/-- Every length handed to the backend is at most 2^32 - 1 and no input longer than its output (R102), with locality 0
(R228): B is such that N_q is (log 19). -/
abbrev State.LengthsWf (s : State) : Prop :=
  negotiateCrq s.backend.bufferSize ≤ Config.maxLength ∧ s.crq.nq ≤ Config.maxLength
    ∧ (s.crb.slot.inLen ≤ s.crb.slot.outLen ∧ s.crb.slot.outLen ≤ Config.maxLength)
    ∧ (∀ q ∈ s.backend.outstanding, q.inLen ≤ q.outLen ∧ q.outLen ≤ Config.maxLength)
    ∧ ∀ c ∈ s.log.be, c.lengthsFit

/-- The host's books: REGISTRY counts the device that exists (R51, R270, R276), every outstanding request is of that
device, which was reset (R229, R275), and a CRB device is never in a snapshot phase (R206). -/
abbrev State.HostWf (s : State) : Prop :=
  s.host.registry = (if s.frontEnd.isSome then 1 else 0)
    ∧ (∀ q ∈ s.backend.outstanding, s.frontEnd = some q.frontEnd ∧ s.wasReset = true)
    ∧ (s.frontEnd = some .crb → s.host.snapPhase = false)

/-- The invariant of the machine. -/
structure State.Inv (s : State) : Prop where
  memories : s.MemoriesWf
  sizes : s.SizesWf
  regs : s.RegsWf
  slot : s.SlotWf
  lengths : s.LengthsWf
  host : s.HostWf
  /-- FAULTS is a set: its list has no repeats (R53). -/
  faults : s.log.faults.Nodup

/-- The width and offset of an access to the register window, for the 13 operations that are one (R120). -/
def registerAccess : Instr → Option (BitVec 3 × Nat)
  | .crbRdReg sz off => some (sz, off.toNat)
  | .crbWrCmdReady sz => some (sz, 0x040)
  | .crbWrGoIdle sz => some (sz, 0x040)
  | .crbWrCtrlReqOther sz _ => some (sz, 0x040)
  | .crbWrCancelInvoke sz => some (sz, 0x048)
  | .crbWrCancelOther sz _ => some (sz, 0x048)
  | .crbWrStartInvoke sz => some (sz, 0x04C)
  | .crbWrStartOther sz _ => some (sz, 0x04C)
  | .crbWrLocRequestAccess sz => some (sz, 0x008)
  | .crbWrLocRelinquish sz => some (sz, 0x008)
  | .crbWrLocResetEstablishment sz => some (sz, 0x008)
  | .crbWrLocCtrlOther sz _ => some (sz, 0x008)
  | .crbWrIgnored sz off _ => some (sz, off.toNat)
  | .crbRdData _ _ | .crbWrData _ _ _ | .crqInitResult _ _ _ | .crqInitCompleteResult _ _ _
  | .crqInitOther _ _ _ _ | .crqTpmCommand _ _ _ | .crqGetVersion _ _ _ | .crqGetRtceBufferSize _ _ _
  | .crqPrepareToSuspend _ _ _ | .crqCmdOther _ _ _ _ | .crqTagOther _ _ _ _ _ | .beCompleteCrb _ _
  | .beCompleteCrq _ _ | .resetCrb | .resetCrq | .construct _ _ | .destroy | .quiesceCrq | .snapshotCrq
  | .restoreCrq _ | .resumeCrq | .quiesceCrb | .evtUndefined _ => none

/-- The front end a guest operation is an access of: an MMIO transaction of CRB, a CRQ message of CRQ (R6). -/
def guestAccess : Instr → Option FrontEnd
  | .crbRdReg _ _ | .crbWrCmdReady _ | .crbWrGoIdle _ | .crbWrCtrlReqOther _ _ | .crbWrCancelInvoke _
  | .crbWrCancelOther _ _ | .crbWrStartInvoke _ | .crbWrStartOther _ _ | .crbWrLocRequestAccess _
  | .crbWrLocRelinquish _ | .crbWrLocResetEstablishment _ | .crbWrLocCtrlOther _ _ | .crbWrIgnored _ _ _
  | .crbRdData _ _ | .crbWrData _ _ _ => some .crb
  | .crqInitResult _ _ _ | .crqInitCompleteResult _ _ _ | .crqInitOther _ _ _ _ | .crqTpmCommand _ _ _
  | .crqGetVersion _ _ _ | .crqGetRtceBufferSize _ _ _ | .crqPrepareToSuspend _ _ _ | .crqCmdOther _ _ _ _
  | .crqTagOther _ _ _ _ _ => some .crq
  | .beCompleteCrb _ _ | .beCompleteCrq _ _ | .resetCrb | .resetCrq | .construct _ _ | .destroy | .quiesceCrq
  | .snapshotCrq | .restoreCrq _ | .resumeCrq | .quiesceCrb | .evtUndefined _ => none

/-- `t` is `s` after one response delivery (R173): `len_w = min(hdr_size(SCR), N_q)` bytes of SCR written to the saved
address by one DMA write, and one response sent whose form tells whether the write succeeded. Nothing else changes but
the number of the next draw. -/
def Delivers (s t : State) : Prop :=
  ∃ (ok sendOk : Bool) (bytes resp : List Byte),
    let base := s.crq.saved.data.toNat
    let len := min (headerSize s.crq.scr) s.crq.nq
    t = { s with
          guestMem := t.guestMem
          log := { s.log with
            dma := s.log.dma ++ [.write s.crq.saved.data bytes ok]
            sent := s.log.sent ++ [⟨resp, sendOk⟩] }
          draws := t.draws }
    ∧ bytes.length = len ∧ (∀ i, i < len → bytes[i]? = some (s.crq.scr.read i))
    ∧ (∀ a, a < base ∨ base + len ≤ a → t.guestMem.read a = s.guestMem.read a)
    ∧ (ok = true → ∀ i, i < len → t.guestMem.read (base + i) = s.crq.scr.read i)
    ∧ resp = (if ok then
          [0x80, 0x82] ++ toBe16 (BitVec.ofNat 16 len) ++ toBe32 s.crq.saved.data ++ toBe64 s.crq.saved.rsv
        else [0x80, 0xFF, 0x00, 0x00, 0x00, 0x00, 0x00, 0x04] ++ toBe64 s.crq.saved.rsv)

/-- `after` is `before` less one request of the front end `fe` (R222: "choose q in OUTSTANDING; remove q"). -/
def RequestTaken (fe : FrontEnd) (before after : List Request) : Prop :=
  ∃ xs q ys, before = xs ++ q :: ys ∧ q.frontEnd = fe ∧ after = xs ++ ys

/-- At most one request of the device's front end is outstanding, and one exactly while its in-flight marker is set
(R139, R174, R229). -/
def State.SingleRequest (s : State) : Prop :=
  (s.frontEnd = some .crb →
      countRequests .crb s.backend.outstanding = if s.crb.regs.start then 1 else 0)
    ∧ (s.frontEnd = some .crq →
      countRequests .crq s.backend.outstanding = if s.crq.vstate = .executing then 1 else 0)

end Sys2Proof.Machine
end

