-- ==== Sys2Proof/Certificates/Slice0/Obligations.lean ====
section
/-! DEFINITION. The statements for the provers. Each docstring names the rules of spec/ it formalises; "log n" is the
model's own choice notes/assumptions/n.md. -/

open Sys2Proof Sys2Proof.Machine

/-! ## Encoding and decoding -/

/-- R91 to R96 (with the operands of events as log 11 gives them): the decoder reads back every well-formed operation
that the encoder writes, with every operand at every value. -/
def Obligations.DecodeEncodeRoundTrip : Prop :=
  ∀ i : Instr, i.wf = true → decode (encode i) = .ok i

/-- R99: every MMIO header with a data value of its width, every 16-byte CRQ message and every event code decodes, and
to the row that comes first in decreasing priority among those whose mask, match and data value fit. -/
def Obligations.DecodeFollowsOpcodeTable : Prop :=
  (∀ h v, ∃ i, decode (.mmio h v) = .ok i)
  ∧ (∀ bytes : List Byte, bytes.length = 16 → ∃ i, decode (.crq bytes) = .ok i)
  ∧ (∀ e ops, ∃ i, decode (.evt e ops) = .ok i)
  ∧ (∀ h v i, dataFits (h.extractLsb' 12 3) v = true → decode (.mmio h v) = .ok i →
      rowOf (.mmio h v) = some i.mnemonic)
  ∧ (∀ bytes i, decode (.crq bytes) = .ok i → rowOf (.crq bytes) = some i.mnemonic)
  ∧ (∀ e ops i, decode (.evt e ops) = .ok i → rowOf (.evt e ops) = some i.mnemonic)

/-- R103: encoding then decoding a CRQ message recovers its fields. -/
def Obligations.CrqFramingRoundTrip : Prop :=
  ∀ (v msg : Byte) (len : Half) (data : Word) (rsv : Long),
    crqOfBytes ([v, msg] ++ toBe16 len ++ toBe32 data ++ toBe64 rsv) = some ⟨v, msg, len, data, rsv⟩

/-- R101, with the mark of R15 (log 3): a CRQ message of other than 16 bytes decodes to nothing and its step only marks
the run. -/
def Obligations.CrqMessageOfOtherLengthIsRefused : Prop :=
  ∀ (bytes : List Byte) (s : State), bytes.length ≠ 16 →
    decode (.crq bytes) = .error (.crqLength bytes.length)
    ∧ runPacket (.crq bytes) s = .next (s.markRefused (.crqLength bytes.length))

/-- Words of 95_test_vectors.md V2.1 and V1.6 (V2.7), and an event code of R93 (with blank operands, log 11), written
out. -/
def Obligations.WrittenOutWordsDecode : Prop :=
  decode (.mmio 0x304C 0x0) = .ok (.crbRdReg 3 0x4C)
  ∧ decode (.mmio 0xB04C 0x1) = .ok (.crbWrStartInvoke 3)
  ∧ decode (.mmio 0x8040 0x2) = .ok (.crbWrGoIdle 0)
  ∧ decode (.mmio 0x7100 0x0) = .ok (.crbRdData 7 0x100)
  ∧ decode (.crq [0x80, 0x03, 0, 0, 0x12, 0x34, 0x56, 0x78, 0, 0, 0, 0, 0, 0, 0, 0])
      = .ok (.crqGetRtceBufferSize 0 0x12345678 0)
  ∧ decode (.evt 0x33 blankOperands) = .ok .resumeCrq

/-! ## The register window -/

/-- R64: a register read of 1 to 4 bytes returns the sub-word of the enclosing word, its bytes past the word 0, and
changes nothing; any other width is BusReject and changes no device state (as a next state that records it, R15, R66;
log 4). -/
def Obligations.RegisterReadGivesSubWord : Prop :=
  ∀ (sz : BitVec 3) (off : BitVec 8) (s : State), s.GuestReady .crb →
    let n := accessBytes sz
    let o := off.toNat
    (n ≤ 4 → ∃ v, exec (.crbRdReg sz off) s = .next { s with reply := .value n v } ∧
      ∀ k, k < 8 → byteOf v k =
        if k < n ∧ o % 4 + k < 4 then wordByte (s.crb.regs.word (o - o % 4)) (o % 4 + k) else 0)
    ∧ (4 < n → ∃ fs, exec (.crbRdReg sz off) s =
        .next { s with log := { s.log with faults := fs }, reply := .busReject }
        ∧ ∀ f, f ∈ fs ↔ f ∈ s.log.faults ∨ f = ⟨o, n⟩)

/-- R26 and R41: the reserved words read 0 at every byte and ignore every write. -/
def Obligations.ReservedWordsReadZeroAndIgnoreWrites : Prop :=
  ∀ (sz : BitVec 3) (off : BitVec 8) (v : Long) (s : State), s.GuestReady .crb → accessBytes sz ≤ 4 →
    let w := off.toNat - off.toNat % 4
    (w = 0x04 ∨ (0x10 ≤ w ∧ w ≤ 0x2C) ∨ 0x70 ≤ w) →
    exec (.crbRdReg sz off) s = .next { s with reply := .value (accessBytes sz) 0 }
    ∧ exec (.crbWrIgnored sz off v) s = .next { s with reply := .written }

/-- R24, R30, R32, R136: the command registers read 0 in every state; in a state of the invariant CTRL_START reads 1
exactly while the command slot is valid, else 0. -/
def Obligations.CommandRegistersReadZeroAndStartReadsTheSlot : Prop :=
  ∀ s : State, s.GuestReady .crb →
    (∀ (sz : BitVec 3) (off : BitVec 8), accessBytes sz ≤ 4 → off.toNat - off.toNat % 4 ∈ [0x08, 0x40, 0x48] →
      exec (.crbRdReg sz off) s = .next { s with reply := .value (accessBytes sz) 0 })
    ∧ (s.Inv → exec (.crbRdReg 3 0x4C) s =
        .next { s with reply := .value 4 (if s.crb.slot.valid then 1 else 0) })

/-- R66, R249 (as a next state that records it, R15; log 4): a register-window access of more than 4 bytes records
(off, n) in FAULTS, returns no value and changes nothing else; a data-window access of any width the header gives, at most
8, records no fault. -/
def Obligations.WideRegisterAccessIsBusReject : Prop :=
  (∀ (i : Instr) (sz : BitVec 3) (off : Nat) (s : State), registerAccess i = some (sz, off) →
    s.GuestReady .crb → 4 < accessBytes sz →
    ∃ fs, exec i s = .next { s with log := { s.log with faults := fs }, reply := .busReject }
      ∧ ∀ f, f ∈ fs ↔ f ∈ s.log.faults ∨ f = ⟨off, accessBytes sz⟩)
  ∧ (∀ (sz : BitVec 3) (off : BitVec 12) (v : Long) (s : State), s.GuestReady .crb →
    1 ≤ accessBytes sz ∧ accessBytes sz ≤ 8
    ∧ (∃ t, exec (.crbRdData sz off) s = .next t ∧ t.log = s.log ∧ t.reply ≠ .busReject)
    ∧ (∃ t, exec (.crbWrData sz off v) s = .next t ∧ t.log = s.log ∧ t.reply ≠ .busReject))

/-- R122, R123: command-ready clears tpmIdle and go-idle sets it; every other bit and everything else stays, whatever
the start bit is. -/
def Obligations.CmdReadyAndGoIdleWriteTpmIdle : Prop :=
  ∀ (sz : BitVec 3) (s : State), s.GuestReady .crb → accessBytes sz ≤ 4 →
    (∃ w, exec (.crbWrCmdReady sz) s = .next
        { s with crb := { s.crb with regs := { s.crb.regs with ctrlSts := w } }, reply := .written }
      ∧ ∀ k, k < 32 → w.getLsbD k = if k = 1 then false else s.crb.regs.ctrlSts.getLsbD k)
    ∧ (∃ w, exec (.crbWrGoIdle sz) s = .next
        { s with crb := { s.crb with regs := { s.crb.regs with ctrlSts := w } }, reply := .written }
      ∧ ∀ k, k < 32 → w.getLsbD k = if k = 1 then true else s.crb.regs.ctrlSts.getLsbD k)

/-- R124, R126, R128, R130, R131, R132 (and R133 up to 4 bytes): the unrecognised command values, relinquish,
reset-establishment-bit and a write at any other offset are accepted and change nothing. -/
def Obligations.UnrecognisedRegisterWritesChangeNothing : Prop :=
  ∀ (sz : BitVec 3) (off : BitVec 8) (v : Long) (s : State), s.GuestReady .crb → accessBytes sz ≤ 4 →
    ∀ i ∈ [Instr.crbWrCtrlReqOther sz v, .crbWrCancelOther sz v, .crbWrStartOther sz v, .crbWrLocRelinquish sz,
      .crbWrLocResetEstablishment sz, .crbWrLocCtrlOther sz v, .crbWrIgnored sz off v],
    exec i s = .next { s with reply := .written }

/-- R125: cancel-invoke forwards one Cancel() while the start bit is set, and does nothing otherwise; the start bit and
OUTSTANDING stay. -/
def Obligations.CancelInvokeForwardsOnlyWhileStarted : Prop :=
  ∀ (sz : BitVec 3) (s : State), s.GuestReady .crb → accessBytes sz ≤ 4 →
    exec (.crbWrCancelInvoke sz) s =
      .next (if s.crb.regs.ctrlStart.getLsbD 0 then
          { s with log := { s.log with be := s.log.be ++ [.cancel] }, reply := .written }
        else { s with reply := .written })

/-- R127: start-invoke with the start bit clear sets it, fills the slot with min(hdr_size(DW), N_crb) and N_crb and
delivers that request with locality 0; with the start bit set it does nothing. -/
def Obligations.StartInvokeDeliversOnceWhileIdle : Prop :=
  ∀ (sz : BitVec 3) (s : State), s.GuestReady .crb → accessBytes sz ≤ 4 →
    let n := s.crb.nCrb
    let inLen := min (headerSize s.crb.dw) n
    (s.crb.regs.ctrlStart.getLsbD 0 = false →
      ∃ w, exec (.crbWrStartInvoke sz) s = .next
        { s with
          crb := { s.crb with regs := { s.crb.regs with ctrlStart := w }, slot := ⟨true, inLen, n⟩ }
          backend := { s.backend with outstanding := s.backend.outstanding ++ [⟨.crb, inLen, n⟩] }
          log := { s.log with be := s.log.be ++ [.deliver 0 inLen n] }
          reply := .written }
        ∧ ∀ k, k < 32 → w.getLsbD k = if k = 0 then true else s.crb.regs.ctrlStart.getLsbD k)
    ∧ (s.crb.regs.ctrlStart.getLsbD 0 = true →
      exec (.crbWrStartInvoke sz) s = .next { s with reply := .written })

/-- R129: request-access sets Granted, locAssigned and tpmRegValidSts and clears beenSeized; every other bit and
everything else stays. -/
def Obligations.RequestAccessGrantsLocality : Prop :=
  ∀ (sz : BitVec 3) (s : State), s.GuestReady .crb → accessBytes sz ≤ 4 →
    ∃ sts st, exec (.crbWrLocRequestAccess sz) s = .next
        { s with crb := { s.crb with regs := { s.crb.regs with locSts := sts, locState := st } }, reply := .written }
      ∧ (∀ k, k < 32 → sts.getLsbD k =
          if k = 0 then true else if k = 1 then false else s.crb.regs.locSts.getLsbD k)
      ∧ (∀ k, k < 32 → st.getLsbD k = if k = 1 ∨ k = 7 then true else s.crb.regs.locState.getLsbD k)

/-! ## The data window -/

/-- R134: a data-window read gives, byte by byte, DW where the index is below W and start is 0, and a draw elsewhere
(the free byte of log 5); nothing else changes but the number of the next draw. -/
def Obligations.DataWindowReadGivesWindowBytesOrDraws : Prop :=
  ∀ (sz : BitVec 3) (off : BitVec 12) (s : State), s.GuestReady .crb → 0x100 ≤ off.toNat →
    let n := accessBytes sz
    let a := off.toNat - 0x100
    ∃ v d, exec (.crbRdData sz off) s = .next { s with draws := d, reply := .value n v } ∧
      (∀ k, n ≤ k → k < 8 → byteOf v k = 0)
      ∧ (∀ k, k < n → a + k < min s.crb.nCrb 3840 → s.crb.regs.ctrlStart.getLsbD 0 = false →
          byteOf v k = s.crb.dw.read (a + k))
      ∧ (∀ k, k < n → min s.crb.nCrb 3840 ≤ a + k ∨ s.crb.regs.ctrlStart.getLsbD 0 = true →
          byteOf v k = Config.freeByte s.draws k)

/-- R135: a data-window write puts byte `k` of V at index `a + k` where that is below W, and changes no other byte, in
flight or not. -/
def Obligations.DataWindowWriteStoresInsideWindow : Prop :=
  ∀ (sz : BitVec 3) (off : BitVec 12) (v : Long) (s : State), s.GuestReady .crb → 0x100 ≤ off.toNat →
    let n := accessBytes sz
    let a := off.toNat - 0x100
    ∃ m, exec (.crbWrData sz off v) s = .next { s with crb := { s.crb with dw := m }, reply := .written } ∧
      ∀ i, m.read i =
        if a ≤ i ∧ i < a + n ∧ i < min s.crb.nCrb 3840 then byteOf v (i - a) else s.crb.dw.read i

/-- R67: what a data-window write stores inside the window, a read of the same bytes returns, little-endian, while no
command is in flight. -/
def Obligations.DataWindowReadReturnsWhatWasWritten : Prop :=
  ∀ (sz : BitVec 3) (off : BitVec 12) (v : Long) (s t : State), s.GuestReady .crb → 0x100 ≤ off.toNat →
    off.toNat - 0x100 + accessBytes sz ≤ min s.crb.nCrb 3840 → s.crb.regs.ctrlStart.getLsbD 0 = false →
    dataFits sz v = true → exec (.crbWrData sz off v) s = .next t →
    ∃ d, exec (.crbRdData sz off) t = .next { t with draws := d, reply := .value (accessBytes sz) v }

/-! ## Completions -/

/-- R138: a CRB completion takes one CRB request off OUTSTANDING, puts the output in the window, clears the start bit and
the slot, and sets tpmSts on a nonzero result; it is not enabled without such a request. -/
def Obligations.CompleteCrbClearsStartAndRecordsError : Prop :=
  ∀ (r : Word) (out : List Byte) (s : State),
    ((s.frontEnd = some .crb ∧ ∃ q ∈ s.backend.outstanding, q.frontEnd = .crb) →
      ∃ m sts st rest d, exec (.beCompleteCrb r out) s = .next
        { s with
          backend := { s.backend with outstanding := rest }
          crb := { s.crb with
            dw := m, regs := { s.crb.regs with ctrlStart := st, ctrlSts := sts }
            slot := { s.crb.slot with valid := false } }
          draws := d, reply := .done }
        ∧ RequestTaken .crb s.backend.outstanding rest
        ∧ (∀ i, i < s.crb.nCrb → ∀ b, out[i]? = some b → m.read i = b)
        ∧ (∀ k, k < 32 → st.getLsbD k = if k = 0 then false else s.crb.regs.ctrlStart.getLsbD k)
        ∧ (∀ k, k < 32 → sts.getLsbD k =
            if k = 0 ∧ r ≠ 0 then true else s.crb.regs.ctrlSts.getLsbD k))
    ∧ (¬(s.frontEnd = some .crb ∧ ∃ q ∈ s.backend.outstanding, q.frontEnd = .crb) →
      exec (.beCompleteCrb r out) s = .fault .notEnabled)

/-- R173: DeliverResponse() is one DMA write of min(hdr_size(SCR), N_q) bytes to the saved address and one send of the
result response, or of the vTPM-error with data 4 where the write failed; SAVED is not modified. Guest memory is held in
State and counts past 2^32 with no wrap (log 7), and a failed write stays inside its range (log 17). -/
def Obligations.DeliverResponseWritesOnceAndSendsOnce : Prop :=
  ∀ s : State, Delivers s s.deliverResponse

/-- R172: a CRQ completion takes one CRQ request off OUTSTANDING, puts the output in SCR and sets VSTATE Completed; in
the snapshot phase it sets DEFERRED and delivers nothing, else it delivers (R173; guest memory with no wrap at 2^32,
log 7; a failed write stays inside its range, log 17); the result is not looked at; it is not enabled without such a
request. -/
def Obligations.CompleteCrqDeliversOrDefers : Prop :=
  ∀ (r : Word) (out : List Byte) (s : State),
    ((s.frontEnd = some .crq ∧ ∃ q ∈ s.backend.outstanding, q.frontEnd = .crq) →
      ∃ mid t : State,
        mid = { s with
          backend := { s.backend with outstanding := mid.backend.outstanding }
          crq := { s.crq with scr := mid.crq.scr, vstate := .completed }
          draws := mid.draws }
        ∧ RequestTaken .crq s.backend.outstanding mid.backend.outstanding
        ∧ (∀ i, i < s.crq.nq → ∀ b, out[i]? = some b → mid.crq.scr.read i = b)
        ∧ (s.host.snapPhase = true → t = { mid with crq := { mid.crq with deferred := true } })
        ∧ (s.host.snapPhase = false → Delivers mid t)
        ∧ ∀ r' : Word, exec (.beCompleteCrq r' out) s = .next { t with reply := .done })
    ∧ (¬(s.frontEnd = some .crq ∧ ∃ q ∈ s.backend.outstanding, q.frontEnd = .crq) →
      exec (.beCompleteCrq r out) s = .fault .notEnabled)

/-! ## CRQ messages -/

/-- R162, R163: the two init messages are answered with a zeroed message of the same tag and sub-message, in every
VSTATE, and change nothing else. -/
def Obligations.InitMessagesAreAcknowledgedWithZeroes : Prop :=
  ∀ (len : Half) (data : Word) (rsv : Long) (s : State), s.GuestReady .crq →
    (∃ ok d, exec (.crqInitResult len data rsv) s = .next
      { s with
        log := { s.log with
          sent := s.log.sent ++ [⟨[0xC0, 0x01, 0, 0, 0, 0, 0, 0, 0, 0, 0, 0, 0, 0, 0, 0], ok⟩] }
        draws := d, reply := .ok })
    ∧ (∃ ok d, exec (.crqInitCompleteResult len data rsv) s = .next
      { s with
        log := { s.log with
          sent := s.log.sent ++ [⟨[0xC0, 0x02, 0, 0, 0, 0, 0, 0, 0, 0, 0, 0, 0, 0, 0, 0], ok⟩] }
        draws := d, reply := .ok })

/-- R164, R170, R171: every other sub-message, opcode and tag is ignored with status OK. -/
def Obligations.UnrecognisedMessagesAreIgnored : Prop :=
  ∀ (valid msg : Byte) (len : Half) (data : Word) (rsv : Long) (s : State), s.GuestReady .crq →
    ∀ i ∈ [Instr.crqInitOther msg len data rsv, .crqCmdOther msg len data rsv, .crqTagOther valid msg len data rsv],
    exec i s = .next { s with reply := .ok }

/-- R165: while Executing a command message is BUSY and changes nothing; else it is saved, VSTATE becomes Executing, N_q
bytes are read by DMA into SCR, the request is delivered, and a failed read sends the copy-in vTPM-error besides. The read
counts past 2^32 in guest memory with no wrap (R74, log 7). -/
def Obligations.TpmCommandIsBusyOrAccepted : Prop :=
  ∀ (len : Half) (data : Word) (rsv : Long) (s : State), s.GuestReady .crq →
    (s.crq.vstate = .executing → exec (.crqTpmCommand len data rsv) s = .next { s with reply := .busy })
    ∧ (s.crq.vstate ≠ .executing → ∃ m ok sendOk d,
        let n := s.crq.nq
        let inLen := min (headerSize m) n
        exec (.crqTpmCommand len data rsv) s = .next
          { s with
            crq := { s.crq with saved := ⟨0x80, 0x02, len, data, rsv⟩, vstate := .executing, scr := m }
            backend := { s.backend with outstanding := s.backend.outstanding ++ [⟨.crq, inLen, n⟩] }
            log := { s.log with
              dma := s.log.dma ++ [.read data n ok]
              be := s.log.be ++ [.deliver 0 inLen n]
              sent := if ok then s.log.sent else
                s.log.sent ++ [⟨[0x80, 0xFF, 0x00, 0x00, 0x00, 0x00, 0x00, 0x03] ++ toBe64 rsv, sendOk⟩] }
            draws := d, reply := .ok }
        ∧ (ok = true → ∀ i, i < n → m.read i = s.guestMem.read (data.toNat + i)))

/-- R242: BUSY is the answer of a command message while Executing and of nothing else, and that step changes nothing but
its answer. -/
def Obligations.BusyOnlyForCommandWhileExecuting : Prop :=
  ∀ (i : Instr) (s t : State), exec i s = .next t → t.reply = .busy →
    (∃ len data rsv, i = .crqTpmCommand len data rsv) ∧ s.crq.vstate = .executing ∧ t = { s with reply := .busy }

/-- R167, R168, R169: the three informational messages are answered in every VSTATE with the bytes the rules give, and
change nothing else. -/
def Obligations.InformationalMessagesAreAnswered : Prop :=
  ∀ (len : Half) (data : Word) (rsv : Long) (s : State), s.GuestReady .crq →
    let sends (i : Instr) (bytes : List Byte) : Prop :=
      ∃ ok d, exec i s = .next
        { s with log := { s.log with sent := s.log.sent ++ [⟨bytes, ok⟩] }, draws := d, reply := .ok }
    sends (.crqGetVersion len data rsv) ([0x80, 0x81, 0x00, 0x00] ++ toBe32 s.crq.versionCode ++ toBe64 rsv)
    ∧ sends (.crqGetRtceBufferSize len data rsv)
        ([0x80, 0x83] ++ toBe16 (BitVec.ofNat 16 (s.crq.nq % 65536)) ++ toBe32 data ++ toBe64 rsv)
    ∧ sends (.crqPrepareToSuspend len data rsv) ([0x80, 0x84] ++ toBe16 len ++ toBe32 data ++ toBe64 rsv)

/-! ## Guest admission -/

/-- R275 and R201: a guest access before the first reset, and one while SNAP_PHASE is 1, is refused; the first comes
before the second, and both before the access width (log 21). -/
def Obligations.GuestIsRefusedBeforeResetAndWhilePaused : Prop :=
  ∀ (i : Instr) (fe : FrontEnd) (s : State), guestAccess i = some fe → s.frontEnd = some fe →
    (s.wasReset = false → exec i s = .refused .guestBeforeReset)
    ∧ (s.wasReset = true → s.host.snapPhase = true → exec i s = .refused .guestWhilePaused)

/-- 40_crb.md and 41_crq.md, first paragraphs; R206, R270, R276 (log 13): a guest access, a reset and a quiesce of one front
end are refused on a device of the other, and where no device exists; DESTROY, SNAPSHOT, RESTORE and RESUME are refused
where none exists. Not said here: SNAPSHOT, RESTORE and RESUME on a CRB device (CrbDeviceIsNotMigratable); the completions,
which are held and not refused (CompleteCrbClearsStartAndRecordsError, CompleteCrqDeliversOrDefers); EVT_UNDEFINED, refused
in every state (UndefinedEventIsRefused); CONSTRUCT, which belongs to neither front end (ConstructRealisesOneDevice). -/
def Obligations.OperationsBelongToTheirFrontEnd : Prop :=
  (∀ (i : Instr) (fe : FrontEnd) (s : State), frontEndOf i = some fe →
    guestAccess i = some fe ∨ i ∈ [Instr.resetCrb, .resetCrq, .quiesceCrq, .quiesceCrb] →
    (s.frontEnd = none → exec i s = .refused .noDevice)
    ∧ (∀ f, s.frontEnd = some f → f ≠ fe → exec i s = .refused .wrongFrontEnd))
  ∧ (∀ (i : Instr) (rec : Snapshot) (s : State), s.frontEnd = none →
    i ∈ [Instr.destroy, .snapshotCrq, .restoreCrq rec, .resumeCrq] → exec i s = .refused .noDevice)

/-! ## Migration -/

/-- R200: QUIESCE sets SNAP_PHASE and nothing else. -/
def Obligations.QuiesceBeginsSnapshotPhase : Prop :=
  ∀ s : State, s.frontEnd = some .crq →
    exec .quiesceCrq s = .next { s with host := { s.host with snapPhase := true }, reply := .done }

/-- R203: SNAPSHOT is held while SNAP_PHASE is 0 or a CRQ request is outstanding; else it returns the record and changes
nothing. -/
def Obligations.SnapshotReturnsRecordOrIsHeld : Prop :=
  ∀ s : State, s.frontEnd = some .crq →
    ((s.host.snapPhase = false ∨ ∃ q ∈ s.backend.outstanding, q.frontEnd = .crq) →
      exec .snapshotCrq s = .fault .notEnabled)
    ∧ ((s.host.snapPhase = true ∧ ∀ q ∈ s.backend.outstanding, q.frontEnd ≠ .crq) →
      ∃ bytes : List Byte,
        exec .snapshotCrq s = .next
          { s with reply := .snapshot ⟨s.crq.vstate, s.crq.deferred, s.crq.saved, s.crq.nq, bytes⟩ }
        ∧ bytes.length = s.crq.nq ∧ ∀ i, i < s.crq.nq → bytes[i]? = some (s.crq.scr.read i))

/-- R204 (also before reset and for a record of any length, log 22): RESTORE of a record of the device's N_q loads VSTATE,
DEFERRED, SAVED and SCR and sets SNAP_PHASE; of another N_q it is refused. -/
def Obligations.RestoreLoadsRecordOfSameSize : Prop :=
  ∀ (rec : Snapshot) (s : State), s.frontEnd = some .crq →
    (rec.nq = s.crq.nq → ∃ m d,
      exec (.restoreCrq rec) s = .next
        { s with
          crq := { s.crq with vstate := rec.vstate, deferred := rec.deferred, saved := rec.saved, scr := m }
          host := { s.host with snapPhase := true }
          draws := d, reply := .done }
      ∧ ∀ i, i < s.crq.nq → ∀ b, rec.scr[i]? = some b → m.read i = b)
    ∧ (rec.nq ≠ s.crq.nq → exec (.restoreCrq rec) s = .refused .restoreSizeMismatch)

/-- R205: RESUME outside the snapshot phase does nothing; in it SNAP_PHASE is cleared, and a deferred response is
delivered once (R173; guest memory with no wrap at 2^32, log 7; a failed write stays inside its range, log 17) and DEFERRED
cleared. -/
def Obligations.ResumeReplaysDeferredResponse : Prop :=
  ∀ s : State, s.frontEnd = some .crq →
    (s.host.snapPhase = false → exec .resumeCrq s = .next { s with reply := .done })
    ∧ (s.host.snapPhase = true → s.crq.deferred = false →
        exec .resumeCrq s = .next { s with host := { s.host with snapPhase := false }, reply := .done })
    ∧ (s.host.snapPhase = true → s.crq.deferred = true → ∃ mid, Delivers s mid ∧
        exec .resumeCrq s = .next
          { mid with
            crq := { mid.crq with deferred := false }
            host := { mid.host with snapPhase := false }
            reply := .done })

/-- R206: QUIESCE on a CRB device returns MigrationBlocked (code 2, R240) and changes no state; CRB has no SNAPSHOT, RESTORE or RESUME,
which are refused. -/
def Obligations.CrbDeviceIsNotMigratable : Prop :=
  ∀ (rec : Snapshot) (s : State), s.frontEnd = some .crb →
    exec .quiesceCrb s = .next { s with reply := .error 2 .migrationBlocked }
    ∧ exec .snapshotCrq s = .refused .crbNotMigratable
    ∧ exec (.restoreCrq rec) s = .refused .crbNotMigratable
    ∧ exec .resumeCrq s = .refused .crbNotMigratable

/-- R207: quiesce, then the completion, then snapshot on the source, and restore and resume on a destination with the
same N_q: the source sends and writes nothing, the destination performs exactly one DMA write to the saved address and one
send, and a second resume does nothing. Without a completion in the phase and with DEFERRED 0, nothing is replayed. The
destination may be one that was never reset (log 22). -/
def Obligations.MigrationDeliversExactlyOnce : Prop :=
  (∀ (r : Word) (out : List Byte) (rec : Snapshot) (s s1 s2 s3 d : State),
    exec .quiesceCrq s = .next s1 → exec (.beCompleteCrq r out) s1 = .next s2 →
    exec .snapshotCrq s2 = .next s3 → s3.reply = .snapshot rec →
    d.frontEnd = some .crq → d.crq.nq = s.crq.nq →
    s3.log.sent = s.log.sent ∧ s3.log.dma = s.log.dma ∧
    ∃ d1 d2, exec (.restoreCrq rec) d = .next d1 ∧ exec .resumeCrq d1 = .next d2
      ∧ exec .resumeCrq d2 = .next d2
      ∧ d2.crq.deferred = false ∧ d2.crq.vstate = .completed ∧ d2.host.snapPhase = false
      ∧ ∃ bytes ok msg, d2.log.dma = d.log.dma ++ [.write s.crq.saved.data bytes ok]
        ∧ d2.log.sent = d.log.sent ++ [msg]
        ∧ (∀ i b, bytes[i]? = some b → i < out.length → out[i]? = some b)
        ∧ (ok = true → msg.bytes = [0x80, 0x82] ++ toBe16 (BitVec.ofNat 16 bytes.length)
            ++ toBe32 s.crq.saved.data ++ toBe64 s.crq.saved.rsv))
  ∧ (∀ (rec : Snapshot) (s s1 s2 d : State),
    exec .quiesceCrq s = .next s1 → exec .snapshotCrq s1 = .next s2 → s2.reply = .snapshot rec →
    s.crq.deferred = false → d.frontEnd = some .crq → d.crq.nq = s.crq.nq →
    ∃ d1 d2, exec (.restoreCrq rec) d = .next d1 ∧ exec .resumeCrq d1 = .next d2
      ∧ d2.log = d.log ∧ d2.crq.vstate = s.crq.vstate ∧ d2.crq.saved = s.crq.saved)

/-! ## Construction, reset, destruction -/

/-- R270: CONSTRUCT fails (code 1, R240) with DUPLICATE where a front end exists, else with NO_BACKEND where none is
attached; else the
device exists with REGISTRY one more, SNAP_PHASE 0 and its construction values, and was not reset. -/
def Obligations.ConstructRealisesOneDevice : Prop :=
  ∀ (fe : FrontEnd) (present : Bool) (s : State),
    (1 ≤ s.host.registry →
      exec (.construct fe present) s = .next { s with reply := .error 1 (.configuration .duplicate) })
    ∧ (s.host.registry = 0 → present = false →
      exec (.construct fe present) s = .next { s with reply := .error 1 (.configuration .noBackend) })
    ∧ (s.host.registry = 0 → present = true → (fe = .crb → 6 ≤ s.backend.bufferSize) →
      ∃ c q d,
        exec (.construct fe present) s = .next
          { s with
            frontEnd := some fe, wasReset := false, host := ⟨false, 1⟩, crb := c, crq := q
            draws := d, reply := .done }
        ∧ (fe = .crb → q = s.crq ∧ (∀ o, c.regs.word o = 0) ∧ c.slot.valid = false)
        ∧ (fe = .crq → c = s.crb ∧ q.vstate = .idle ∧ q.saved = ⟨0, 0, 0, 0, 0⟩ ∧ q.nq = 4096
            ∧ q.versionCode = 0 ∧ q.deferred = false))

/-- R275 and D16: a CRB configuration with B below 6 is refused. -/
def Obligations.CrbConfigurationNeedsSixBytes : Prop :=
  ∀ s : State, s.host.registry = 0 → s.backend.bufferSize < 6 →
    exec (.construct .crb true) s = .refused .configuration

/-- R271, R273: RESET_CRB negotiates N_crb = min(B, M), gives every register its reset value, clears the slot, and starts
the backend with N_crb; DW and OUTSTANDING are unchanged. -/
def Obligations.ResetCrbRestoresPowerOnRegisters : Prop :=
  ∀ s : State, s.frontEnd = some .crb →
    let n := min s.backend.bufferSize 3840
    ∃ regs err d, exec .resetCrb s = .next
      { s with
        wasReset := true
        crb := { s.crb with nCrb := n, regs := regs, slot := { s.crb.slot with valid := false } }
        backend := { s.backend with hadStartupError := err }
        log := { s.log with control := s.log.control ++ [.startup n] }
        draws := d, reply := .done }
      ∧ regs.word 0x00 = 0x00000080 ∧ regs.word 0x30 = 0x00025811 ∧ regs.word 0x34 = 0x00001014
      ∧ regs.word 0x44 = 0x00000002 ∧ regs.word 0x58 = 0x00000F00 ∧ regs.word 0x64 = 0x00000F00
      ∧ regs.word 0x5C = 0xFED40100 ∧ regs.word 0x68 = 0xFED40100
      ∧ ∀ o, o ∉ [0x00, 0x30, 0x34, 0x44, 0x58, 0x5C, 0x64, 0x68] → regs.word o = 0

/-- R272: RESET_CRQ reads version and startup error first, negotiates N_q, resizes SCR keeping the kept bytes, resets and
starts the backend, and leaves VSTATE Idle and DEFERRED 0; SAVED, SNAP_PHASE and OUTSTANDING are unchanged. -/
def Obligations.ResetCrqNegotiatesAndGoesIdle : Prop :=
  ∀ s : State, s.frontEnd = some .crq →
    ∃ n m err d, exec .resetCrq s = .next
      { s with
        wasReset := true
        crq := { s.crq with
          vstate := .idle, deferred := false, nq := n, scr := m
          versionCode := if s.backend.hadStartupError then 0 else
            match s.backend.version with
            | .unspecified => 0
            | .v1_2 => 1
            | .v2_0 => 2 }
        backend := { s.backend with hadStartupError := err }
        log := { s.log with control := s.log.control ++ [.reset, .startup n] }
        draws := d, reply := .done }
      ∧ n % 4096 = 0 ∧ 4096 ≤ n ∧ s.backend.bufferSize ≤ n ∧ (n = 4096 ∨ n < s.backend.bufferSize + 4096)
      ∧ ∀ i, i < min s.crq.nq n → m.read i = s.crq.scr.read i

/-- R276: DESTROY takes the device off REGISTRY and drops what is outstanding; construction is possible again; and no
operation but CONSTRUCT runs on a destroyed device. -/
def Obligations.DestroyEndsTheDevice : Prop :=
  ∀ s : State, s.frontEnd ≠ none →
    ∃ t, exec .destroy s = .next t
      ∧ t = { s with
          frontEnd := none, wasReset := t.wasReset
          host := { s.host with registry := s.host.registry - 1 }
          backend := { s.backend with outstanding := [] }, reply := .done }
      ∧ (∀ i u, exec i t = .next u → ∃ fe present, i = .construct fe present)
      ∧ (s.Inv → 6 ≤ s.backend.bufferSize → ∀ fe, ∃ u, exec (.construct fe true) t = .next u ∧ u.frontEnd = some fe)

/-- R93, R99: an event code outside R93 decodes to EVT_UNDEFINED, whose operation is refused. -/
def Obligations.UndefinedEventIsRefused : Prop :=
  ∀ (e : Byte) (ops : EvtOperands) (s : State),
    e ∉ [0x01, 0x02, 0x10, 0x11, 0x20, 0x21, 0x30, 0x31, 0x32, 0x33, 0x34] →
    decode (.evt e ops) = .ok (.evtUndefined e) ∧ exec (.evtUndefined e) s = .refused (.undefinedEvent e)

/-! ## Whole-machine rules -/

/-- R42 (with construction, R270): only these operations change the register file. -/
def Obligations.RegistersChangeOnlyByTheirWriters : Prop :=
  ∀ (i : Instr) (s t : State), exec i s = .next t → t.crb.regs ≠ s.crb.regs →
    i = .resetCrb ∨ (∃ sz, i = .crbWrCmdReady sz) ∨ (∃ sz, i = .crbWrGoIdle sz) ∨ (∃ sz, i = .crbWrStartInvoke sz)
      ∨ (∃ sz, i = .crbWrLocRequestAccess sz) ∨ (∃ r out, i = .beCompleteCrb r out)
      ∨ (∃ present, i = .construct .crb present)

/-- R33, R138: once the start bit is set only the completion and reset clear it, or the construction of another device
(R270). -/
def Obligations.StartBitIsClearedOnlyByCompletionOrReset : Prop :=
  ∀ (i : Instr) (s t : State), exec i s = .next t → s.crb.regs.start = true → t.crb.regs.start = false →
    i = .resetCrb ∨ (∃ r out, i = .beCompleteCrb r out) ∨ (∃ present, i = .construct .crb present)

/-- R31, R287: tpmSts, once set, stays set through everything but reset, or the construction of another device. -/
def Obligations.ErrorStatusIsSticky : Prop :=
  ∀ (i : Instr) (s t : State), exec i s = .next t → s.crb.regs.tpmSts = true → t.crb.regs.tpmSts = false →
    i = .resetCrb ∨ (∃ present, i = .construct .crb present)

/-- R224, R225: no step changes the backend's buffer size or version. -/
def Obligations.BackendConstantsNeverChange : Prop :=
  ∀ (s t : State), step s = .next t →
    t.backend.bufferSize = s.backend.bufferSize ∧ t.backend.version = s.backend.version

/-- R60: only the CRQ front end has guest DMA and the message channel, only the CRB front end has MMIO; R42 to R50 and R53
name each device's own writers and logs, R51 the host's. So operations of the CRB front end leave the CRQ device, guest
memory (held in State: log 7), SENT, DMA_LOG and the host (SNAP_PHASE, REGISTRY) alone, and operations of the CRQ front end
leave the CRB device, FAULTS and the host's REGISTRY alone: SNAP_PHASE they may write (QUIESCE_CRQ, RESTORE_CRQ and
RESUME_CRQ), REGISTRY only construction and destruction, which belong to neither front end. -/
def Obligations.FrontEndsAreIsolated : Prop :=
  ∀ (i : Instr) (s t : State), exec i s = .next t →
    (frontEndOf i = some .crb → t.crq = s.crq ∧ t.guestMem = s.guestMem ∧ t.log.sent = s.log.sent
      ∧ t.log.dma = s.log.dma ∧ t.host = s.host)
    ∧ (frontEndOf i = some .crq → t.crb = s.crb ∧ t.log.faults = s.log.faults ∧ t.host.registry = s.host.registry)

/-- R69, R44: the data window changes only by a data-window write, a CRB completion and construction. -/
def Obligations.DataWindowChangesOnlyByItsWriters : Prop :=
  ∀ (i : Instr) (s t : State), exec i s = .next t → t.crb.dw ≠ s.crb.dw →
    (∃ sz off v, i = .crbWrData sz off v) ∨ (∃ r out, i = .beCompleteCrb r out)
      ∨ (∃ present, i = .construct .crb present)

/-- R74, R173: of the operations only a delivery (a CRQ completion or a resume) changes guest memory, and only in the
range the saved address and min(hdr_size, N_q) of the buffer delivered give, with no wrap at 2^32 (log 7) and failed or
not (log 17). The guest's own stores are inputs of the model's own (log 7). -/
def Obligations.GuestMemoryChangesOnlyByDelivery : Prop :=
  ∀ (i : Instr) (s t : State) (a : Nat), exec i s = .next t → t.guestMem.read a ≠ s.guestMem.read a →
    ((∃ r out, i = .beCompleteCrq r out) ∨ i = .resumeCrq)
    ∧ s.crq.saved.data.toNat ≤ a ∧ a < s.crq.saved.data.toNat + min (headerSize t.crq.scr) s.crq.nq

/-- R45 to R50 (with construction, R270): VSTATE, SAVED and SCR change only by an accepted command, a completion, restore,
reset and construction, SAVED not by a completion or a reset; DEFERRED only by a completion, restore, resume, reset and
construction; N_q and VERSION_CODE only by reset and construction. -/
def Obligations.CrqStateChangesOnlyByItsWriters : Prop :=
  ∀ (i : Instr) (s t : State), exec i s = .next t →
    (t.crq.saved ≠ s.crq.saved → (∃ len data rsv, i = .crqTpmCommand len data rsv) ∨ (∃ rec, i = .restoreCrq rec)
      ∨ (∃ present, i = .construct .crq present))
    ∧ (t.crq.vstate ≠ s.crq.vstate ∨ t.crq.scr ≠ s.crq.scr →
      (∃ len data rsv, i = .crqTpmCommand len data rsv) ∨ (∃ r out, i = .beCompleteCrq r out)
      ∨ (∃ rec, i = .restoreCrq rec) ∨ i = .resetCrq ∨ (∃ present, i = .construct .crq present))
    ∧ (t.crq.deferred ≠ s.crq.deferred →
      (∃ r out, i = .beCompleteCrq r out) ∨ (∃ rec, i = .restoreCrq rec) ∨ i = .resumeCrq ∨ i = .resetCrq
      ∨ (∃ present, i = .construct .crq present))
    ∧ (t.crq.nq ≠ s.crq.nq ∨ t.crq.versionCode ≠ s.crq.versionCode →
      i = .resetCrq ∨ (∃ present, i = .construct .crq present))

/-- R53, R15: FAULTS and REFUSED are never cleared, and SENT, DMA_LOG and BE_LOG only grow at their end: by the step of any
input on any state, refused or not, and by a step of the machine; and no operation that answers a next state touches
REFUSED. -/
def Obligations.ObservationsOnlyGrow : Prop :=
  let grows (s t : State) : Prop :=
    (∀ f ∈ s.log.faults, f ∈ t.log.faults) ∧ (s.log.refused = true → t.log.refused = true)
    ∧ (∃ xs, t.log.sent = s.log.sent ++ xs) ∧ (∃ xs, t.log.dma = s.log.dma ++ xs)
    ∧ (∃ xs, t.log.be = s.log.be ++ xs)
  (∀ (x : Input) (s t : State), runInput x s = .next t → grows s t)
  ∧ (∀ s t : State, step s = .next t → grows s t)
  ∧ (∀ (i : Instr) (s t : State), exec i s = .next t → t.log.refused = s.log.refused)

/-- The invariant (canonical memories, sizes, legal registers, slot and start bit, lengths, host's books) holds after the
reset of every configuration the spec admits: B at least 6 on CRB (R275), and N_q at most 2^32 - 1 (R102, log 19). -/
def Obligations.ResetMeetsInvariant : Prop :=
  ∀ (fe : FrontEnd) (b : Nat) (v : BeVersion) (e0 e : Bool), (fe = .crb → 6 ≤ b) → negotiateCrq b ≤ 2 ^ 32 - 1 →
    (State.afterReset fe b v e0 e).Inv

/-- Every step keeps the invariant. -/
def Obligations.StepKeepsInvariant : Prop :=
  ∀ s t : State, s.Inv → step s = .next t → t.Inv

/-- R139, R174, R229: while no reset interrupts a request and no record of an executing command is loaded, every operation
keeps at most one request of the device's front end outstanding, and one exactly while its in-flight marker is set. -/
def Obligations.AtMostOneRequestInFlight : Prop :=
  ∀ (i : Instr) (s t : State), s.Inv → s.SingleRequest →
    (i = .resetCrb → s.crb.regs.start = false) → (i = .resetCrq → s.crq.vstate ≠ .executing) →
    (∀ rec, i = .restoreCrq rec → rec.vstate ≠ .executing ∧ s.crq.vstate ≠ .executing) →
    exec i s = .next t → t.SingleRequest

/-! ## The step -/

/-- R21, R99, R15 (log 1, log 3): in a run not refused, when the first input is a packet that decodes to an enabled
operation, the step is that operation run on the state without the input; where the operation is refused, the step sets
the REFUSED mark instead. -/
def Obligations.StepRunsTheDecodedOperation : Prop :=
  ∀ (p : Packet) (rest : List Input) (i : Instr) (s : State),
    s.log.refused = false → s.inputs = .packet p :: rest → decode p = .ok i → enabled i s = true →
    step s = (match exec i { s with inputs := rest } with
      | .next t => .next t
      | .fault f => .fault f
      | .refused r => .next { s with
          inputs := rest, log := { s.log with refused := true }, reply := .refused r })

/-- R13 `hold until`, R203 (log 2): in a run not refused, the step is that of the first input whose step is enabled, be it
a packet that decodes to an operation, a message that decodes to none or a store of the guest; the held inputs before it
stay where they are. -/
def Obligations.StepTakesTheFirstEnabledInput : Prop :=
  ∀ (held rest : List Input) (x : Input) (s : State),
    s.log.refused = false → s.inputs = held ++ x :: rest →
    (∀ y ∈ held, inputReady s y = false) → inputReady s x = true →
    step s = runInput x { s with inputs := held ++ rest }

/-- R15 (log 2, log 3): the machine is stuck exactly where the run is not refused and every input raised is held, so with
nothing raised; a run whose REFUSED mark is set has no meaning; and every operation of a taken input is enabled, so
`notEnabled` is never a step's answer. -/
def Obligations.StepStopsOnlyWhenStuckOrRefused : Prop :=
  (∀ s : State, step s = .fault .stuck ↔ s.log.refused = false ∧ ∀ x ∈ s.inputs, inputReady s x = false)
  ∧ (∀ s : State, s.log.refused = false → s.inputs = [] → step s = .fault .stuck)
  ∧ (∀ s : State, s.log.refused = true → step s = .refused .refusedRun)
  ∧ (∀ s : State, step s ≠ .fault .notEnabled)
  ∧ (∀ (s : State) (r : Refusal), step s = .refused r → s.log.refused = true)

/-- R138, R172, R203 (log 2): the inputs that are held are a completion with no request of the device's front end
outstanding, and a snapshot of a CRQ device outside the snapshot phase or with a CRQ request outstanding; no other. -/
def Obligations.InputsAreHeldOnlyAsTheRulesSay : Prop :=
  ∀ (x : Input) (s : State), inputReady s x = false ↔ ∃ ops,
    (x = .packet (.evt 0x01 ops) ∧ ¬(s.frontEnd = some .crb ∧ ∃ q ∈ s.backend.outstanding, q.frontEnd = .crb))
    ∨ (x = .packet (.evt 0x02 ops) ∧ ¬(s.frontEnd = some .crq ∧ ∃ q ∈ s.backend.outstanding, q.frontEnd = .crq))
    ∨ (x = .packet (.evt 0x31 ops) ∧ s.frontEnd = some .crq
        ∧ (s.host.snapPhase = false ∨ ∃ q ∈ s.backend.outstanding, q.frontEnd = .crq))

/-- R201 (a store of the guest into its memory is a step of the guest, log 7): while SNAP_PHASE is 1 every input of the
guest is refused, and changes nothing but the mark and the answer. Outside it a store of the guest is taken, with no
device too. -/
def Obligations.GuestHasNoStepsWhilePaused : Prop :=
  (∀ (x : Input) (s : State), agentOf x = .guest → s.host.snapPhase = true →
    ∃ r, runInput x s = .next { s with log := { s.log with refused := true }, reply := .refused r })
  ∧ (∀ (addr : Nat) (bytes : List Byte) (s : State), s.host.snapPhase = false →
    ∃ m, runInput (.guestStore addr bytes) s = .next { s with guestMem := m }
      ∧ ∀ a, m.read a = if addr ≤ a then (bytes[a - addr]?).getD (s.guestMem.read a) else s.guestMem.read a)
end

