-- ==== Sys2Proof/Laws/Bytes.lean ====
section
/-! SUPPORT. The laws of byte order, access widths and single bits. -/

namespace Sys2Proof.Machine

/-! ## Access widths -/

theorem accessBytes_pos (sz : BitVec 3) : 1 ≤ accessBytes sz := Nat.le_add_left 1 _

theorem accessBytes_le (sz : BitVec 3) : accessBytes sz ≤ 8 := by have := sz.isLt; unfold accessBytes; omega

/-! ## Bits and bytes of a value -/

/-- Bit `k` of a word after one of its bits is put. -/
theorem putBit_getLsbD (w : Word) (i k : Nat) (b : Bool) (hk : k < 32) :
    (putBit w i b).getLsbD k = if k = i then b else w.getLsbD k := by
  unfold putBit
  rcases Nat.lt_trichotomy k i with h | h | h
  · cases b <;> simp [hk, h, Nat.ne_of_lt h]
  · subst h; cases b <;> simp [hk]
  · have : k - i ≠ 0 := by omega
    cases b <;> simp [hk, this, Nat.ne_of_gt h]

/-- Two 64-bit values with the same eight bytes are the same value. -/
theorem long_ext {v w : Long} (h : ∀ k, k < 8 → byteOf v k = byteOf w k) : v = w := by
  apply BitVec.eq_of_getLsbD_eq
  intro i hi
  have := congrArg (·.getLsbD (i % 8)) (h (i / 8) (by omega))
  simpa [BitVec.getLsbD_extractLsb', Nat.mod_lt, Nat.div_add_mod] using this

/-- V[8n-1:0], byte by byte. -/
theorem byteOf_keepBytes (sz : BitVec 3) (v : Long) (k : Nat) (hk : k < 8) :
    byteOf (keepBytes sz v) k = if k < accessBytes sz then byteOf v k else 0 := by
  have hm : ∀ i, (byteMask (accessBytes sz)).getLsbD i = decide (i < 64 ∧ i < 8 * accessBytes sz) := by
    intro i
    rw [byteMask, BitVec.getLsbD_ofNat, Nat.testBit_two_pow_sub_one]
    by_cases h : i < 64 <;> simp [h]
  apply BitVec.eq_of_getLsbD_eq
  intro j hj
  simp only [byteOf, keepBytes, BitVec.getLsbD_extractLsb', BitVec.getLsbD_and, hm]
  by_cases h : k < accessBytes sz
  · have h1 : 8 * k + j < 64 ∧ 8 * k + j < 8 * accessBytes sz := by omega
    simp [h, h1, BitVec.getLsbD_extractLsb']
  · have h1 : ¬ 8 * k + j < 8 * accessBytes sz := by omega
    simp [h, h1]

/-! ## Little-endian lists -/

@[simp] theorem toLeFrom_length (v : Long) (k n : Nat) : (toLeFrom v k n).length = n := by
  induction n generalizing k with
  | zero => rfl
  | succ n ih => simp [toLeFrom, ih]

theorem toLeFrom_getElem? (v : Long) (k n i : Nat) (h : i < n) :
    (toLeFrom v k n)[i]? = some (byteOf v (k + i)) := by
  induction n generalizing k i with
  | zero => omega
  | succ n ih =>
    cases i with
    | zero => rfl
    | succ i =>
      rw [toLeFrom, List.getElem?_cons_succ, ih (k + 1) i (by omega)]
      congr 2; omega

/-- Byte `k` of the number a list of bytes is. -/
theorem leNat_byte (bs : List Byte) (k : Nat) : leNat bs / 256 ^ k % 256 = ((bs[k]?).getD 0).toNat := by
  induction bs generalizing k with
  | nil => simp [leNat]
  | cons b bs ih =>
    have hb := b.isLt
    cases k with
    | zero => simp only [leNat, List.getElem?_cons_zero, Option.getD_some]; omega
    | succ k =>
      rw [List.getElem?_cons_succ, ← ih k, leNat, Nat.pow_succ, Nat.mul_comm (256 ^ k) 256, ← Nat.div_div_eq_div_mul]
      congr 2; omega

/-- Byte `k` of the value a read returns: the byte of the list, 0 past its end. -/
theorem byteOf_leValue (bs : List Byte) (k : Nat) (hk : k < 8) : byteOf (leValue bs) k = (bs[k]?).getD 0 := by
  apply BitVec.eq_of_toNat_eq
  rw [← leNat_byte bs k]
  simp only [byteOf, leValue, BitVec.extractLsb'_toNat, BitVec.toNat_ofNat, Nat.shiftRight_eq_div_pow]
  have h1 : (2 : Nat) ^ (8 * k) = 256 ^ k := by rw [Nat.pow_mul]
  have h2 : (2 : Nat) ^ 64 = 256 ^ k * 256 ^ (8 - k) := by rw [← Nat.pow_add]; simp [show k + (8 - k) = 8 by omega]
  have h3 : 256 ∣ 256 ^ (8 - k) := Dvd.intro_left (256 ^ (7 - k)) (by rw [← Nat.pow_succ]; congr 1; omega)
  rw [h1, h2, Nat.mod_mul_right_div_self, Nat.mod_mod_of_dvd _ h3]

/-! ## Data-window accesses -/

@[simp] theorem readFrom_length (c : Crb) (d a0 k n : Nat) : (c.readFrom d a0 k n).length = n := by
  induction n generalizing k with
  | zero => rfl
  | succ n ih => simp [Crb.readFrom, ih]

theorem readFrom_getElem? (c : Crb) (d a0 k n i : Nat) (h : i < n) :
    (c.readFrom d a0 k n)[i]? = some (c.readByte d a0 (k + i)) := by
  induction n generalizing k i with
  | zero => omega
  | succ n ih =>
    cases i with
    | zero => rfl
    | succ i =>
      rw [Crb.readFrom, List.getElem?_cons_succ, ih (k + 1) i (by omega)]
      congr 2; omega

end Sys2Proof.Machine
end

