-- ==== Sys2Proof/Laws/Memory.lean ====
section
/-! SUPPORT. The laws of byte memories: what a read gives after a write, and that every operation keeps the canonical
form. -/

namespace Sys2Proof.Machine

/-! ## Lookup -/

@[simp] theorem cellAt_nil (a : Nat) : cellAt a [] = none := rfl

theorem cellAt_append (a : Nat) (xs ys : List Host.Cell) :
    cellAt a (xs ++ ys) = (cellAt a xs).or (cellAt a ys) := by
  induction xs with
  | nil => simp
  | cons c cs ih => simp only [List.cons_append, cellAt]; split <;> simp [*]

theorem cellAt_filter (a : Nat) (p : Nat → Bool) (cs : List Host.Cell) :
    cellAt a (cs.filter fun c => p c.1) = if p a then cellAt a cs else none := by
  induction cs with
  | nil => simp
  | cons c cs ih =>
    by_cases hc : p c.1 = true <;> by_cases ha : c.1 = a
    · subst ha; simp [cellAt, hc]
    · simp [cellAt, hc, ha, ih]
    · subst ha; simp [hc, ih]
    · simp [cellAt, hc, ha, ih]

theorem cellAt_filter_lt (a k : Nat) (cs : List Host.Cell) :
    cellAt a (cs.filter fun c => decide (c.1 < k)) = if a < k then cellAt a cs else none := by
  simpa using cellAt_filter a (fun x => decide (x < k)) cs

theorem cellAt_filter_ge (a k : Nat) (cs : List Host.Cell) :
    cellAt a (cs.filter fun c => decide (k ≤ c.1)) = if k ≤ a then cellAt a cs else none := by
  simpa using cellAt_filter a (fun x => decide (k ≤ x)) cs

theorem cellAt_cellsFrom (a start : Nat) (bs : List Byte) :
    cellAt a (cellsFrom start bs) = if start ≤ a then bs[a - start]? else none := by
  induction bs generalizing start with
  | nil => simp [cellsFrom]
  | cons b bs ih =>
    simp only [cellsFrom, cellAt, ih]
    rcases Nat.lt_trichotomy start a with h | h | h
    · have h1 : a - start = (a - (start + 1)) + 1 := by omega
      rw [if_neg (by omega), if_pos (by omega), if_pos (by omega), h1, List.getElem?_cons_succ]
    · subst h; simp
    · rw [if_neg (by omega), if_neg (by omega), if_neg (by omega)]

/-! ## Reads -/

@[simp] theorem read_free (d a : Nat) : (Memory.free d).read a = Config.freeByte d a := rfl

/-- A byte of a fresh buffer: the given one, else the draw's. -/
theorem read_ofBytes (d a : Nat) (bs : List Byte) :
    (Memory.ofBytes d bs).read a = (bs[a]?).getD (Config.freeByte d a) := by
  simp [Memory.read, Memory.ofBytes, cellAt_cellsFrom]

/-- A byte after a write: the written one inside the stored range, else the byte before. -/
theorem read_write (m : Memory) (start a : Nat) (bs : List Byte) :
    (m.write start bs).read a = if start ≤ a then (bs[a - start]?).getD (m.read a) else m.read a := by
  cases bs with
  | nil => simp [Memory.write]
  | cons b bs =>
    simp only [Memory.write, Memory.read, cellAt_append, cellAt_filter_lt, cellAt_filter_ge, cellAt_cellsFrom]
    by_cases h1 : start ≤ a
    · rw [if_neg (by omega), if_pos h1, if_pos h1]
      by_cases h2 : a - start < (b :: bs).length
      · simp [List.getElem?_eq_getElem h2]
      · rw [List.getElem?_eq_none (by omega), if_pos (by omega)]; simp
    · rw [if_pos (by omega), if_neg h1, if_neg h1, if_neg (by omega)]
      cases cellAt a m.cells <;> rfl

theorem read_write_outside (m : Memory) (start a : Nat) (bs : List Byte)
    (h : a < start ∨ start + bs.length ≤ a) : (m.write start bs).read a = m.read a := by
  rw [read_write]
  split
  · rw [List.getElem?_eq_none (by omega)]; rfl
  · rfl

theorem read_write_inside (m : Memory) (start i : Nat) (bs : List Byte) (h : i < bs.length) :
    (m.write start bs).read (start + i) = bs[i] := by
  rw [read_write, if_pos (by omega), Nat.add_sub_cancel_left, List.getElem?_eq_getElem h]; rfl

@[simp] theorem readBytes_length (m : Memory) (a n : Nat) : (m.readBytes a n).length = n := by
  induction n generalizing a with
  | zero => rfl
  | succ n ih => simp [Memory.readBytes, ih]

theorem readBytes_getElem? (m : Memory) (a n i : Nat) (h : i < n) :
    (m.readBytes a n)[i]? = some (m.read (a + i)) := by
  induction n generalizing a i with
  | zero => omega
  | succ n ih =>
    cases i with
    | zero => rfl
    | succ i =>
      rw [Memory.readBytes, List.getElem?_cons_succ, ih (a + 1) i (by omega)]
      congr 2; omega

@[simp] theorem freeBytes_length (d i n : Nat) : (freeBytes d i n).length = n := by
  induction n generalizing i with
  | zero => rfl
  | succ n ih => simp [freeBytes, ih]

@[simp] theorem write_fill (m : Memory) (start : Nat) (bs : List Byte) : (m.write start bs).fill = m.fill := by
  cases bs <;> rfl

@[simp] theorem write_nil (m : Memory) (start : Nat) : m.write start [] = m := rfl

/-! ## The canonical form -/

theorem risingFrom_weaken {low low' : Nat} (h : low' ≤ low) {cs : List Host.Cell} (hc : risingFrom low cs = true) :
    risingFrom low' cs = true := by
  cases cs with
  | nil => rfl
  | cons c cs => simp only [risingFrom, Bool.and_eq_true, decide_eq_true_eq] at hc ⊢; exact ⟨by omega, hc.2⟩

theorem risingFrom_filter (low : Nat) (p : Nat → Bool) {cs : List Host.Cell} (hc : risingFrom low cs = true) :
    risingFrom low (cs.filter fun c => p c.1) = true := by
  induction cs generalizing low with
  | nil => rfl
  | cons c cs ih =>
    simp only [risingFrom, Bool.and_eq_true, decide_eq_true_eq] at hc
    by_cases hp : p c.1 = true
    · simp [hp, risingFrom, hc.1, ih _ hc.2]
    · simpa [hp] using ih _ (risingFrom_weaken (by omega) hc.2)

theorem risingFrom_cellsFrom (low start : Nat) (bs : List Byte) (h : low ≤ start) :
    risingFrom low (cellsFrom start bs) = true := by
  induction bs generalizing low start with
  | nil => rfl
  | cons b bs ih => simp [cellsFrom, risingFrom, h, ih]

/-- Two rising lists, the second wholly above the first, join to one. -/
theorem risingFrom_append {low k : Nat} {xs ys : List Host.Cell} (hx : risingFrom low xs = true)
    (hk : ∀ c ∈ xs, c.1 < k) (hl : low ≤ k) (hy : risingFrom k ys = true) : risingFrom low (xs ++ ys) = true := by
  induction xs generalizing low with
  | nil => exact risingFrom_weaken hl hy
  | cons c cs ih =>
    simp only [risingFrom, Bool.and_eq_true, decide_eq_true_eq, List.cons_append] at hx ⊢
    exact ⟨hx.1, ih hx.2 (fun d hd => hk d (by simp [hd])) (hk c (by simp))⟩

theorem cellsFrom_bound (start : Nat) (bs : List Byte) :
    ∀ c ∈ cellsFrom start bs, start ≤ c.1 ∧ c.1 < start + bs.length := by
  induction bs generalizing start with
  | nil => simp [cellsFrom]
  | cons b bs ih =>
    intro c hc
    rcases List.mem_cons.1 hc with rfl | hc
    · simp
    · have := ih (start + 1) c hc; simp; omega

/-- The cells a filter keeps above `k` rise from `k`. -/
theorem risingFrom_filter_ge (low k : Nat) {cs : List Host.Cell} (hc : risingFrom low cs = true) :
    risingFrom k (cs.filter fun c => decide (k ≤ c.1)) = true := by
  induction cs generalizing low with
  | nil => rfl
  | cons c cs ih =>
    simp only [risingFrom, Bool.and_eq_true, decide_eq_true_eq] at hc
    by_cases hp : k ≤ c.1
    · have := risingFrom_filter (c.1 + 1) (fun a => decide (k ≤ a)) hc.2
      simp [hp, risingFrom, this]
    · simpa [hp] using ih _ hc.2

theorem free_wf (d : Nat) : (Memory.free d).wf = true := rfl

theorem ofBytes_wf (d : Nat) (bs : List Byte) : (Memory.ofBytes d bs).wf = true :=
  risingFrom_cellsFrom 0 0 bs (Nat.le_refl 0)

theorem ofBytes_bound (d : Nat) (bs : List Byte) : ∀ c ∈ (Memory.ofBytes d bs).cells, c.1 < bs.length := by
  intro c hc
  have := cellsFrom_bound 0 bs c hc
  omega

theorem resize_wf {m : Memory} (old n : Nat) (h : m.wf = true) : (m.resize old n).wf = true :=
  risingFrom_filter 0 (fun a => decide (a < min old n)) h

theorem resize_bound (m : Memory) (old n : Nat) : ∀ c ∈ (m.resize old n).cells, c.1 < n := by
  intro c hc
  have := (List.mem_filter.1 hc).2
  simp only [decide_eq_true_eq] at this
  omega

/-- A write keeps the canonical form. -/
theorem write_wf {m : Memory} (start : Nat) (bs : List Byte) (h : m.wf = true) : (m.write start bs).wf = true := by
  cases bs with
  | nil => exact h
  | cons b bs =>
    simp only [Memory.wf, Memory.write, List.append_assoc]
    refine risingFrom_append (k := start) (risingFrom_filter 0 (fun a => decide (a < start)) h) ?_ (Nat.zero_le _) ?_
    · intro c hc; simpa using (List.mem_filter.1 hc).2
    · exact risingFrom_append (risingFrom_cellsFrom start start _ (Nat.le_refl _))
        (fun c hc => (cellsFrom_bound start _ c hc).2) (by omega) (risingFrom_filter_ge 0 _ h)

/-- A write lists only the old cells and those of its own range. -/
theorem write_cells (m : Memory) (start : Nat) (bs : List Byte) :
    ∀ c ∈ (m.write start bs).cells, c ∈ m.cells ∨ (start ≤ c.1 ∧ c.1 < start + bs.length) := by
  intro c hc
  cases bs with
  | nil => exact .inl hc
  | cons b bs =>
    simp only [Memory.write, List.mem_append, List.mem_filter] at hc
    rcases hc with (hc | hc) | hc
    · exact .inl hc.1
    · exact .inr (cellsFrom_bound start _ c hc)
    · exact .inl hc.1

end Sys2Proof.Machine
end

