-- ==== Sys2Proof/Laws/State.lean ====
section
/-! SUPPORT. One lemma per field per update of the state, each true by rfl, so that no later proof unfolds a record
update. -/

namespace Sys2Proof.Machine

@[simp] theorem code_configuration (r : ConfigReason) : (HostError.configuration r).code = 1 := rfl
@[simp] theorem code_migrationBlocked : HostError.migrationBlocked.code = 2 := rfl

@[simp] theorem raise_eq (s : State) (e : HostError) : s.raise e = s.answer (.error e.code e) := rfl

@[simp] theorem answer_frontEnd (s : State) (r : Reply) : (s.answer r).frontEnd = s.frontEnd := rfl
@[simp] theorem answer_wasReset (s : State) (r : Reply) : (s.answer r).wasReset = s.wasReset := rfl
@[simp] theorem answer_crb (s : State) (r : Reply) : (s.answer r).crb = s.crb := rfl
@[simp] theorem answer_crq (s : State) (r : Reply) : (s.answer r).crq = s.crq := rfl
@[simp] theorem answer_host (s : State) (r : Reply) : (s.answer r).host = s.host := rfl
@[simp] theorem answer_backend (s : State) (r : Reply) : (s.answer r).backend = s.backend := rfl
@[simp] theorem answer_log (s : State) (r : Reply) : (s.answer r).log = s.log := rfl
@[simp] theorem answer_guestMem (s : State) (r : Reply) : (s.answer r).guestMem = s.guestMem := rfl
@[simp] theorem answer_inputs (s : State) (r : Reply) : (s.answer r).inputs = s.inputs := rfl
@[simp] theorem answer_draws (s : State) (r : Reply) : (s.answer r).draws = s.draws := rfl
@[simp] theorem answer_reply (s : State) (r : Reply) : (s.answer r).reply = r := rfl

@[simp] theorem drew_frontEnd (s : State) : (s.drew).frontEnd = s.frontEnd := rfl
@[simp] theorem drew_wasReset (s : State) : (s.drew).wasReset = s.wasReset := rfl
@[simp] theorem drew_crb (s : State) : (s.drew).crb = s.crb := rfl
@[simp] theorem drew_crq (s : State) : (s.drew).crq = s.crq := rfl
@[simp] theorem drew_host (s : State) : (s.drew).host = s.host := rfl
@[simp] theorem drew_backend (s : State) : (s.drew).backend = s.backend := rfl
@[simp] theorem drew_log (s : State) : (s.drew).log = s.log := rfl
@[simp] theorem drew_guestMem (s : State) : (s.drew).guestMem = s.guestMem := rfl
@[simp] theorem drew_inputs (s : State) : (s.drew).inputs = s.inputs := rfl
@[simp] theorem drew_draws (s : State) : (s.drew).draws = s.draws + 1 := rfl
@[simp] theorem drew_reply (s : State) : (s.drew).reply = s.reply := rfl

@[simp] theorem busReject_frontEnd (s : State) (off n : Nat) : (s.busReject off n).frontEnd = s.frontEnd := rfl
@[simp] theorem busReject_wasReset (s : State) (off n : Nat) : (s.busReject off n).wasReset = s.wasReset := rfl
@[simp] theorem busReject_crb (s : State) (off n : Nat) : (s.busReject off n).crb = s.crb := rfl
@[simp] theorem busReject_crq (s : State) (off n : Nat) : (s.busReject off n).crq = s.crq := rfl
@[simp] theorem busReject_host (s : State) (off n : Nat) : (s.busReject off n).host = s.host := rfl
@[simp] theorem busReject_backend (s : State) (off n : Nat) : (s.busReject off n).backend = s.backend := rfl
@[simp] theorem busReject_log (s : State) (off n : Nat) :
    (s.busReject off n).log = { s.log with faults := addFault s.log.faults ⟨off, n⟩ } := rfl
@[simp] theorem busReject_guestMem (s : State) (off n : Nat) : (s.busReject off n).guestMem = s.guestMem := rfl
@[simp] theorem busReject_inputs (s : State) (off n : Nat) : (s.busReject off n).inputs = s.inputs := rfl
@[simp] theorem busReject_draws (s : State) (off n : Nat) : (s.busReject off n).draws = s.draws := rfl
@[simp] theorem busReject_reply (s : State) (off n : Nat) : (s.busReject off n).reply = .busReject := rfl

@[simp] theorem markRefused_frontEnd (s : State) (r : Refusal) : (s.markRefused r).frontEnd = s.frontEnd := rfl
@[simp] theorem markRefused_wasReset (s : State) (r : Refusal) : (s.markRefused r).wasReset = s.wasReset := rfl
@[simp] theorem markRefused_crb (s : State) (r : Refusal) : (s.markRefused r).crb = s.crb := rfl
@[simp] theorem markRefused_crq (s : State) (r : Refusal) : (s.markRefused r).crq = s.crq := rfl
@[simp] theorem markRefused_host (s : State) (r : Refusal) : (s.markRefused r).host = s.host := rfl
@[simp] theorem markRefused_backend (s : State) (r : Refusal) : (s.markRefused r).backend = s.backend := rfl
@[simp] theorem markRefused_log (s : State) (r : Refusal) :
    (s.markRefused r).log = { s.log with refused := true } := rfl
@[simp] theorem markRefused_guestMem (s : State) (r : Refusal) : (s.markRefused r).guestMem = s.guestMem := rfl
@[simp] theorem markRefused_inputs (s : State) (r : Refusal) : (s.markRefused r).inputs = s.inputs := rfl
@[simp] theorem markRefused_draws (s : State) (r : Refusal) : (s.markRefused r).draws = s.draws := rfl
@[simp] theorem markRefused_reply (s : State) (r : Refusal) : (s.markRefused r).reply = .refused r := rfl

@[simp] theorem deliver_frontEnd (s : State) (fe : FrontEnd) (i o : Nat) :
    (s.deliver fe i o).frontEnd = s.frontEnd := rfl
@[simp] theorem deliver_wasReset (s : State) (fe : FrontEnd) (i o : Nat) :
    (s.deliver fe i o).wasReset = s.wasReset := rfl
@[simp] theorem deliver_crb (s : State) (fe : FrontEnd) (i o : Nat) : (s.deliver fe i o).crb = s.crb := rfl
@[simp] theorem deliver_crq (s : State) (fe : FrontEnd) (i o : Nat) : (s.deliver fe i o).crq = s.crq := rfl
@[simp] theorem deliver_host (s : State) (fe : FrontEnd) (i o : Nat) : (s.deliver fe i o).host = s.host := rfl
@[simp] theorem deliver_backend (s : State) (fe : FrontEnd) (i o : Nat) :
    (s.deliver fe i o).backend = { s.backend with outstanding := s.backend.outstanding ++ [⟨fe, i, o⟩] } := rfl
@[simp] theorem deliver_log (s : State) (fe : FrontEnd) (i o : Nat) :
    (s.deliver fe i o).log = { s.log with be := s.log.be ++ [.deliver Config.locality i o] } := rfl
@[simp] theorem deliver_guestMem (s : State) (fe : FrontEnd) (i o : Nat) :
    (s.deliver fe i o).guestMem = s.guestMem := rfl
@[simp] theorem deliver_inputs (s : State) (fe : FrontEnd) (i o : Nat) : (s.deliver fe i o).inputs = s.inputs := rfl
@[simp] theorem deliver_draws (s : State) (fe : FrontEnd) (i o : Nat) : (s.deliver fe i o).draws = s.draws := rfl
@[simp] theorem deliver_reply (s : State) (fe : FrontEnd) (i o : Nat) : (s.deliver fe i o).reply = s.reply := rfl

@[simp] theorem cancel_frontEnd (s : State) : (s.cancel).frontEnd = s.frontEnd := rfl
@[simp] theorem cancel_wasReset (s : State) : (s.cancel).wasReset = s.wasReset := rfl
@[simp] theorem cancel_crb (s : State) : (s.cancel).crb = s.crb := rfl
@[simp] theorem cancel_crq (s : State) : (s.cancel).crq = s.crq := rfl
@[simp] theorem cancel_host (s : State) : (s.cancel).host = s.host := rfl
@[simp] theorem cancel_backend (s : State) : (s.cancel).backend = s.backend := rfl
@[simp] theorem cancel_log (s : State) : (s.cancel).log = { s.log with be := s.log.be ++ [.cancel] } := rfl
@[simp] theorem cancel_guestMem (s : State) : (s.cancel).guestMem = s.guestMem := rfl
@[simp] theorem cancel_inputs (s : State) : (s.cancel).inputs = s.inputs := rfl
@[simp] theorem cancel_draws (s : State) : (s.cancel).draws = s.draws := rfl
@[simp] theorem cancel_reply (s : State) : (s.cancel).reply = s.reply := rfl

@[simp] theorem backendReset_frontEnd (s : State) : (s.backendReset).frontEnd = s.frontEnd := rfl
@[simp] theorem backendReset_wasReset (s : State) : (s.backendReset).wasReset = s.wasReset := rfl
@[simp] theorem backendReset_crb (s : State) : (s.backendReset).crb = s.crb := rfl
@[simp] theorem backendReset_crq (s : State) : (s.backendReset).crq = s.crq := rfl
@[simp] theorem backendReset_host (s : State) : (s.backendReset).host = s.host := rfl
@[simp] theorem backendReset_backend (s : State) : (s.backendReset).backend = s.backend := rfl
@[simp] theorem backendReset_log (s : State) :
    (s.backendReset).log = { s.log with control := s.log.control ++ [.reset] } := rfl
@[simp] theorem backendReset_guestMem (s : State) : (s.backendReset).guestMem = s.guestMem := rfl
@[simp] theorem backendReset_inputs (s : State) : (s.backendReset).inputs = s.inputs := rfl
@[simp] theorem backendReset_draws (s : State) : (s.backendReset).draws = s.draws := rfl
@[simp] theorem backendReset_reply (s : State) : (s.backendReset).reply = s.reply := rfl

@[simp] theorem startupTpmWith_frontEnd (s : State) (ok : Bool) (n : Nat) :
    (s.startupTpmWith ok n).frontEnd = s.frontEnd := rfl
@[simp] theorem startupTpmWith_wasReset (s : State) (ok : Bool) (n : Nat) :
    (s.startupTpmWith ok n).wasReset = s.wasReset := rfl
@[simp] theorem startupTpmWith_crb (s : State) (ok : Bool) (n : Nat) : (s.startupTpmWith ok n).crb = s.crb := rfl
@[simp] theorem startupTpmWith_crq (s : State) (ok : Bool) (n : Nat) : (s.startupTpmWith ok n).crq = s.crq := rfl
@[simp] theorem startupTpmWith_host (s : State) (ok : Bool) (n : Nat) : (s.startupTpmWith ok n).host = s.host := rfl
@[simp] theorem startupTpmWith_backend (s : State) (ok : Bool) (n : Nat) :
    (s.startupTpmWith ok n).backend = { s.backend with hadStartupError := !ok } := rfl
@[simp] theorem startupTpmWith_log (s : State) (ok : Bool) (n : Nat) :
    (s.startupTpmWith ok n).log = { s.log with control := s.log.control ++ [.startup n] } := rfl
@[simp] theorem startupTpmWith_guestMem (s : State) (ok : Bool) (n : Nat) :
    (s.startupTpmWith ok n).guestMem = s.guestMem := rfl
@[simp] theorem startupTpmWith_inputs (s : State) (ok : Bool) (n : Nat) :
    (s.startupTpmWith ok n).inputs = s.inputs := rfl
@[simp] theorem startupTpmWith_draws (s : State) (ok : Bool) (n : Nat) :
    (s.startupTpmWith ok n).draws = s.draws := rfl
@[simp] theorem startupTpmWith_reply (s : State) (ok : Bool) (n : Nat) :
    (s.startupTpmWith ok n).reply = s.reply := rfl

@[simp] theorem startupTpm_frontEnd (s : State) (n : Nat) : (s.startupTpm n).frontEnd = s.frontEnd := rfl
@[simp] theorem startupTpm_wasReset (s : State) (n : Nat) : (s.startupTpm n).wasReset = s.wasReset := rfl
@[simp] theorem startupTpm_crb (s : State) (n : Nat) : (s.startupTpm n).crb = s.crb := rfl
@[simp] theorem startupTpm_crq (s : State) (n : Nat) : (s.startupTpm n).crq = s.crq := rfl
@[simp] theorem startupTpm_host (s : State) (n : Nat) : (s.startupTpm n).host = s.host := rfl
@[simp] theorem startupTpm_backend (s : State) (n : Nat) :
    (s.startupTpm n).backend = { s.backend with hadStartupError := !Config.freeBool s.draws } := rfl
@[simp] theorem startupTpm_log (s : State) (n : Nat) :
    (s.startupTpm n).log = { s.log with control := s.log.control ++ [.startup n] } := rfl
@[simp] theorem startupTpm_guestMem (s : State) (n : Nat) : (s.startupTpm n).guestMem = s.guestMem := rfl
@[simp] theorem startupTpm_inputs (s : State) (n : Nat) : (s.startupTpm n).inputs = s.inputs := rfl
@[simp] theorem startupTpm_draws (s : State) (n : Nat) : (s.startupTpm n).draws = s.draws + 1 := rfl
@[simp] theorem startupTpm_reply (s : State) (n : Nat) : (s.startupTpm n).reply = s.reply := rfl

@[simp] theorem logDmaRead_frontEnd (s : State) (ok : Bool) (addr : Word) (n : Nat) :
    (s.logDmaRead ok addr n).frontEnd = s.frontEnd := rfl
@[simp] theorem logDmaRead_wasReset (s : State) (ok : Bool) (addr : Word) (n : Nat) :
    (s.logDmaRead ok addr n).wasReset = s.wasReset := rfl
@[simp] theorem logDmaRead_crb (s : State) (ok : Bool) (addr : Word) (n : Nat) :
    (s.logDmaRead ok addr n).crb = s.crb := rfl
@[simp] theorem logDmaRead_crq (s : State) (ok : Bool) (addr : Word) (n : Nat) :
    (s.logDmaRead ok addr n).crq = s.crq := rfl
@[simp] theorem logDmaRead_host (s : State) (ok : Bool) (addr : Word) (n : Nat) :
    (s.logDmaRead ok addr n).host = s.host := rfl
@[simp] theorem logDmaRead_backend (s : State) (ok : Bool) (addr : Word) (n : Nat) :
    (s.logDmaRead ok addr n).backend = s.backend := rfl
@[simp] theorem logDmaRead_log (s : State) (ok : Bool) (addr : Word) (n : Nat) :
    (s.logDmaRead ok addr n).log = { s.log with dma := s.log.dma ++ [.read addr n ok] } := rfl
@[simp] theorem logDmaRead_guestMem (s : State) (ok : Bool) (addr : Word) (n : Nat) :
    (s.logDmaRead ok addr n).guestMem = s.guestMem := rfl
@[simp] theorem logDmaRead_inputs (s : State) (ok : Bool) (addr : Word) (n : Nat) :
    (s.logDmaRead ok addr n).inputs = s.inputs := rfl
@[simp] theorem logDmaRead_draws (s : State) (ok : Bool) (addr : Word) (n : Nat) :
    (s.logDmaRead ok addr n).draws = s.draws := rfl
@[simp] theorem logDmaRead_reply (s : State) (ok : Bool) (addr : Word) (n : Nat) :
    (s.logDmaRead ok addr n).reply = s.reply := rfl

@[simp] theorem dmaWriteWith_frontEnd (s : State) (ok : Bool) (addr : Word) (bs : List Byte) :
    (s.dmaWriteWith ok addr bs).frontEnd = s.frontEnd := rfl
@[simp] theorem dmaWriteWith_wasReset (s : State) (ok : Bool) (addr : Word) (bs : List Byte) :
    (s.dmaWriteWith ok addr bs).wasReset = s.wasReset := rfl
@[simp] theorem dmaWriteWith_crb (s : State) (ok : Bool) (addr : Word) (bs : List Byte) :
    (s.dmaWriteWith ok addr bs).crb = s.crb := rfl
@[simp] theorem dmaWriteWith_crq (s : State) (ok : Bool) (addr : Word) (bs : List Byte) :
    (s.dmaWriteWith ok addr bs).crq = s.crq := rfl
@[simp] theorem dmaWriteWith_host (s : State) (ok : Bool) (addr : Word) (bs : List Byte) :
    (s.dmaWriteWith ok addr bs).host = s.host := rfl
@[simp] theorem dmaWriteWith_backend (s : State) (ok : Bool) (addr : Word) (bs : List Byte) :
    (s.dmaWriteWith ok addr bs).backend = s.backend := rfl
@[simp] theorem dmaWriteWith_log (s : State) (ok : Bool) (addr : Word) (bs : List Byte) :
    (s.dmaWriteWith ok addr bs).log = { s.log with dma := s.log.dma ++ [.write addr bs ok] } := rfl
@[simp] theorem dmaWriteWith_guestMem (s : State) (ok : Bool) (addr : Word) (bs : List Byte) :
    (s.dmaWriteWith ok addr bs).guestMem = s.guestMem.write addr.toNat (if ok then bs else freeBytes s.draws 0 bs.length) := rfl
@[simp] theorem dmaWriteWith_inputs (s : State) (ok : Bool) (addr : Word) (bs : List Byte) :
    (s.dmaWriteWith ok addr bs).inputs = s.inputs := rfl
@[simp] theorem dmaWriteWith_draws (s : State) (ok : Bool) (addr : Word) (bs : List Byte) :
    (s.dmaWriteWith ok addr bs).draws = s.draws + 1 := rfl
@[simp] theorem dmaWriteWith_reply (s : State) (ok : Bool) (addr : Word) (bs : List Byte) :
    (s.dmaWriteWith ok addr bs).reply = s.reply := rfl

@[simp] theorem sendWith_frontEnd (s : State) (ok : Bool) (m : CrqMsg) :
    (s.sendWith ok m).frontEnd = s.frontEnd := rfl
@[simp] theorem sendWith_wasReset (s : State) (ok : Bool) (m : CrqMsg) :
    (s.sendWith ok m).wasReset = s.wasReset := rfl
@[simp] theorem sendWith_crb (s : State) (ok : Bool) (m : CrqMsg) : (s.sendWith ok m).crb = s.crb := rfl
@[simp] theorem sendWith_crq (s : State) (ok : Bool) (m : CrqMsg) : (s.sendWith ok m).crq = s.crq := rfl
@[simp] theorem sendWith_host (s : State) (ok : Bool) (m : CrqMsg) : (s.sendWith ok m).host = s.host := rfl
@[simp] theorem sendWith_backend (s : State) (ok : Bool) (m : CrqMsg) : (s.sendWith ok m).backend = s.backend := rfl
@[simp] theorem sendWith_log (s : State) (ok : Bool) (m : CrqMsg) :
    (s.sendWith ok m).log = { s.log with sent := s.log.sent ++ [⟨crqBytes m, ok⟩] } := rfl
@[simp] theorem sendWith_guestMem (s : State) (ok : Bool) (m : CrqMsg) :
    (s.sendWith ok m).guestMem = s.guestMem := rfl
@[simp] theorem sendWith_inputs (s : State) (ok : Bool) (m : CrqMsg) : (s.sendWith ok m).inputs = s.inputs := rfl
@[simp] theorem sendWith_draws (s : State) (ok : Bool) (m : CrqMsg) : (s.sendWith ok m).draws = s.draws + 1 := rfl
@[simp] theorem sendWith_reply (s : State) (ok : Bool) (m : CrqMsg) : (s.sendWith ok m).reply = s.reply := rfl

@[simp] theorem send_frontEnd (s : State) (m : CrqMsg) : (s.send m).frontEnd = s.frontEnd := rfl
@[simp] theorem send_wasReset (s : State) (m : CrqMsg) : (s.send m).wasReset = s.wasReset := rfl
@[simp] theorem send_crb (s : State) (m : CrqMsg) : (s.send m).crb = s.crb := rfl
@[simp] theorem send_crq (s : State) (m : CrqMsg) : (s.send m).crq = s.crq := rfl
@[simp] theorem send_host (s : State) (m : CrqMsg) : (s.send m).host = s.host := rfl
@[simp] theorem send_backend (s : State) (m : CrqMsg) : (s.send m).backend = s.backend := rfl
@[simp] theorem send_log (s : State) (m : CrqMsg) :
    (s.send m).log = { s.log with sent := s.log.sent ++ [⟨crqBytes m, Config.freeBool s.draws⟩] } := rfl
@[simp] theorem send_guestMem (s : State) (m : CrqMsg) : (s.send m).guestMem = s.guestMem := rfl
@[simp] theorem send_inputs (s : State) (m : CrqMsg) : (s.send m).inputs = s.inputs := rfl
@[simp] theorem send_draws (s : State) (m : CrqMsg) : (s.send m).draws = s.draws + 1 := rfl
@[simp] theorem send_reply (s : State) (m : CrqMsg) : (s.send m).reply = s.reply := rfl

@[simp] theorem guestStore_frontEnd (s : State) (a : Nat) (bs : List Byte) :
    (s.guestStore a bs).frontEnd = s.frontEnd := rfl
@[simp] theorem guestStore_wasReset (s : State) (a : Nat) (bs : List Byte) :
    (s.guestStore a bs).wasReset = s.wasReset := rfl
@[simp] theorem guestStore_crb (s : State) (a : Nat) (bs : List Byte) : (s.guestStore a bs).crb = s.crb := rfl
@[simp] theorem guestStore_crq (s : State) (a : Nat) (bs : List Byte) : (s.guestStore a bs).crq = s.crq := rfl
@[simp] theorem guestStore_host (s : State) (a : Nat) (bs : List Byte) : (s.guestStore a bs).host = s.host := rfl
@[simp] theorem guestStore_backend (s : State) (a : Nat) (bs : List Byte) :
    (s.guestStore a bs).backend = s.backend := rfl
@[simp] theorem guestStore_log (s : State) (a : Nat) (bs : List Byte) : (s.guestStore a bs).log = s.log := rfl
@[simp] theorem guestStore_guestMem (s : State) (a : Nat) (bs : List Byte) :
    (s.guestStore a bs).guestMem = s.guestMem.write a bs := rfl
@[simp] theorem guestStore_inputs (s : State) (a : Nat) (bs : List Byte) :
    (s.guestStore a bs).inputs = s.inputs := rfl
@[simp] theorem guestStore_draws (s : State) (a : Nat) (bs : List Byte) : (s.guestStore a bs).draws = s.draws := rfl
@[simp] theorem guestStore_reply (s : State) (a : Nat) (bs : List Byte) : (s.guestStore a bs).reply = s.reply := rfl

@[simp] theorem writeData_regs (c : Crb) (a n : Nat) (v : Long) : (c.writeData a n v).regs = c.regs := rfl
@[simp] theorem writeData_nCrb (c : Crb) (a n : Nat) (v : Long) : (c.writeData a n v).nCrb = c.nCrb := rfl
@[simp] theorem writeData_slot (c : Crb) (a n : Nat) (v : Long) : (c.writeData a n v).slot = c.slot := rfl

end Sys2Proof.Machine
end

