-- ==== Sys2Proof/Laws/Ops.lean ====
section
/-! SUPPORT. One lemma for each shared operation that says everything it can do, for callers to cite. -/

namespace Sys2Proof.Machine

/-! ## Admission -/

/-- An admitted step leads where it was to lead, and only an admitted step does. -/
theorem gated_next {g : Option Refusal} {t u : State} : gated g t = .next u ↔ g = none ∧ u = t := by
  cases g <;> simp [gated, eq_comm]

theorem gated_not_fault {g : Option Refusal} {t : State} {f : Fault} : gated g t ≠ .fault f := by
  cases g <;> simp [gated]

theorem deviceGate_none {fe : FrontEnd} {s : State} : deviceGate fe s = none ↔ s.frontEnd = some fe := by
  unfold deviceGate
  cases s.frontEnd with
  | none => simp
  | some f => by_cases h : f = fe <;> simp [h]

theorem guestGate_none {fe : FrontEnd} {s : State} : guestGate fe s = none ↔ s.GuestReady fe := by
  unfold guestGate State.GuestReady
  rw [← deviceGate_none]
  cases deviceGate fe s <;> cases s.wasReset <;> cases s.host.snapPhase <;> simp

theorem migrationGate_none {s : State} : migrationGate s = none ↔ s.frontEnd = some .crq := by
  unfold migrationGate
  rcases s.frontEnd with _ | f
  · simp
  · cases f <;> simp

theorem storeGate_none {s : State} : storeGate s = none ↔ s.host.snapPhase = false := by
  unfold storeGate
  cases s.host.snapPhase <;> simp

/-- A guest write of the register window: admitted, it is a BusReject or leads to its effect. -/
theorem crbRegWrite_next {sz : BitVec 3} {off : Nat} {s t u : State} :
    crbRegWrite sz off s t = .next u ↔ s.GuestReady .crb ∧
      u = if 4 < accessBytes sz then s.busReject off (accessBytes sz) else t.answer .written := by
  rw [crbRegWrite, gated_next, guestGate_none]

/-- A CRQ dispatch: admitted, it leads to its effect and its transport status. -/
theorem crqDispatch_next {s t u : State} {r : Reply} :
    crqDispatch s t r = .next u ↔ s.GuestReady .crq ∧ u = t.answer r := by
  rw [crqDispatch, gated_next, guestGate_none]

/-! ## Faults and the backend -/

theorem addFault_nodup {fs : List BusReject} {f : BusReject} (h : fs.Nodup) : (addFault fs f).Nodup := by
  unfold addFault
  split
  · exact h
  · rename_i hf
    simp only [List.contains_eq_mem, decide_eq_true_eq] at hf
    exact List.nodup_append.2 ⟨h, by simp, by rintro a ha b hb rfl; simp at hb; exact hf (hb ▸ ha)⟩

theorem mem_addFault {fs : List BusReject} {f g : BusReject} : g ∈ addFault fs f ↔ g ∈ fs ∨ g = f := by
  unfold addFault
  split
  · rename_i hf
    simp only [List.contains_eq_mem, decide_eq_true_eq] at hf
    exact ⟨.inl, fun h => h.elim id fun e => e ▸ hf⟩
  · simp

theorem holds_iff {b : Backend} {fe : FrontEnd} : b.holds fe = true ↔ ∃ q ∈ b.outstanding, q.frontEnd = fe := by
  simp [Backend.holds]

theorem removeRequest_subset (fe : FrontEnd) (k : Nat) (qs : List Request) :
    ∀ q ∈ removeRequest fe k qs, q ∈ qs := by
  induction qs generalizing k with
  | nil => simp [removeRequest]
  | cons p qs ih =>
    intro q hq
    unfold removeRequest at hq
    split at hq
    · cases k with
      | zero => exact List.mem_cons_of_mem _ hq
      | succ k =>
        rcases List.mem_cons.1 hq with rfl | hq
        · simp
        · exact List.mem_cons_of_mem _ (ih k q hq)
    · rcases List.mem_cons.1 hq with rfl | hq
      · simp
      · exact List.mem_cons_of_mem _ (ih k q hq)

@[simp] theorem retire_hadStartupError (b : Backend) (fe : FrontEnd) (d : Nat) :
    (b.retire fe d).hadStartupError = b.hadStartupError := rfl
@[simp] theorem retire_bufferSize (b : Backend) (fe : FrontEnd) (d : Nat) :
    (b.retire fe d).bufferSize = b.bufferSize := rfl
@[simp] theorem retire_version (b : Backend) (fe : FrontEnd) (d : Nat) : (b.retire fe d).version = b.version := rfl

theorem retire_subset (b : Backend) (fe : FrontEnd) (d : Nat) :
    ∀ q ∈ (b.retire fe d).outstanding, q ∈ b.outstanding := removeRequest_subset _ _ _

/-! ## Delivery -/

/-- DeliverResponse(): one DMA write of `responseLength` bytes of SCR to the saved address, then one send (R173). -/
theorem deliverResponse_eq (s : State) :
    s.deliverResponse =
      { s with
        guestMem := s.guestMem.write s.crq.saved.data.toNat
          (if Config.freeBool s.draws then s.crq.scr.readBytes 0 s.crq.responseLength
           else freeBytes s.draws 0 s.crq.responseLength)
        log := { s.log with
          dma := s.log.dma ++
            [.write s.crq.saved.data (s.crq.scr.readBytes 0 s.crq.responseLength) (Config.freeBool s.draws)]
          sent := s.log.sent ++
            [⟨crqBytes (s.crq.response (Config.freeBool s.draws)), Config.freeBool (s.draws + 1)⟩] }
        draws := s.draws + 2 } := by
  simp [State.deliverResponse, State.deliverResponseWith, State.dmaWriteWith, State.sendWith]

/-- A packet's outcome is never a refusal: a refused step marks the run (R15). -/
theorem settle_not_refused (s : State) (o : Outcome) (r : Refusal) : settle s o ≠ .refused r := by
  cases o <;> simp [settle]

theorem settle_next {s t : State} {o : Outcome} :
    settle s o = .next t ↔ o = .next t ∨ ∃ r, o = .refused r ∧ t = s.markRefused r := by
  cases o <;> simp [settle, eq_comm]

end Sys2Proof.Machine
end

