-- ==== Sys2Proof/Laws/Exec.lean ====
section
/-! SUPPORT. For each meaning that is not one shared operation alone: when it answers a next state, and which. -/

namespace Sys2Proof.Machine

theorem execCrbRdReg_next {sz : BitVec 3} {off : BitVec 8} {s t : State} :
    execCrbRdReg sz off s = .next t ↔ s.GuestReady .crb ∧
      t = if 4 < accessBytes sz then s.busReject off.toNat (accessBytes sz)
        else s.answer (.value (accessBytes sz) ((s.crb.regs.subWord off.toNat (accessBytes sz)).setWidth 64)) := by
  rw [execCrbRdReg, gated_next, guestGate_none]

theorem execCrbRdData_next {sz : BitVec 3} {off : BitVec 12} {s t : State} :
    execCrbRdData sz off s = .next t ↔ s.GuestReady .crb ∧
      t = s.drew.answer (.value (accessBytes sz)
        (leValue (s.crb.readFrom s.draws (windowIndex off) 0 (accessBytes sz)))) := by
  rw [execCrbRdData, gated_next, guestGate_none]

theorem execCrbWrData_next {sz : BitVec 3} {off : BitVec 12} {v : Long} {s t : State} :
    execCrbWrData sz off v s = .next t ↔ s.GuestReady .crb ∧
      t = ({ s with crb := s.crb.writeData (windowIndex off) (accessBytes sz) v }).answer .written := by
  rw [execCrbWrData, gated_next, guestGate_none]

theorem execCrqTpmCommand_next {len : Half} {data : Word} {rsv : Long} {s t : State} :
    execCrqTpmCommand len data rsv s = .next t ↔ s.GuestReady .crq ∧
      ((s.crq.vstate = .executing ∧ t = s.answer .busy)
        ∨ (s.crq.vstate ≠ .executing
          ∧ t = (s.acceptCommand ⟨tagCmd, msgTpmCommand, len, data, rsv⟩).answer .ok)) := by
  unfold execCrqTpmCommand
  split <;> rename_i h <;> simp [crqDispatch_next, h]

theorem execBeCompleteCrb_next {r : Word} {out : List Byte} {s t : State} :
    execBeCompleteCrb r out s = .next t ↔
      completionEnabled .crb s = true ∧ t = (s.completeCrb r out).answer .done := by
  unfold execBeCompleteCrb
  split <;> simp [*, eq_comm]

theorem execBeCompleteCrq_next (r : Word) {out : List Byte} {s t : State} :
    execBeCompleteCrq r out s = .next t ↔
      completionEnabled .crq s = true ∧ t = (s.finishCrq out).deferOrDeliver.answer .done := by
  unfold execBeCompleteCrq
  split <;> simp [*, eq_comm]

theorem execResetCrb_next {s t : State} :
    execResetCrb s = .next t ↔ s.frontEnd = some .crb ∧ t = s.resetCrb.answer .done := by
  rw [execResetCrb, gated_next, deviceGate_none]

theorem execResetCrq_next {s t : State} :
    execResetCrq s = .next t ↔ s.frontEnd = some .crq ∧ t = s.resetCrq.answer .done := by
  rw [execResetCrq, gated_next, deviceGate_none]

/-- CONSTRUCT that answers: an error, with nothing changed, or a device. -/
theorem execConstruct_next {fe : FrontEnd} {present : Bool} {s t : State} (h : execConstruct fe present s = .next t) :
    (∃ reason, t = s.raise (.configuration reason))
      ∨ (s.host.registry = 0 ∧ (fe = .crb → 6 ≤ s.backend.bufferSize) ∧ t = (s.constructed fe).answer .done) := by
  unfold execConstruct at h
  split at h
  · cases h; exact .inl ⟨_, rfl⟩
  · split at h
    · cases h; exact .inl ⟨_, rfl⟩
    · split at h
      · cases h
      · rename_i h1 _ h3
        cases h
        exact .inr ⟨by omega, fun he => by_contra fun hb => h3 ⟨he, by omega⟩, rfl⟩

theorem execDestroy_next {s t : State} (h : execDestroy s = .next t) :
    s.frontEnd ≠ none ∧ t = ({ s with
      frontEnd := none
      wasReset := false
      host := { s.host with registry := s.host.registry - 1 }
      backend := { s.backend with outstanding := [] } }).answer .done := by
  unfold execDestroy at h
  split at h
  · cases h
  · rename_i hf
    cases h
    exact ⟨by simp [hf], rfl⟩

theorem execSnapshotCrq_next {s t : State} (h : execSnapshotCrq s = .next t) :
    s.frontEnd = some .crq ∧ snapshotReady s = true ∧ t = s.answer (.snapshot s.record) := by
  unfold execSnapshotCrq at h
  split at h
  · cases h
  · rename_i hg
    split at h
    · rename_i hr
      cases h
      exact ⟨migrationGate_none.1 hg, hr, rfl⟩
    · cases h

theorem execRestoreCrq_next {rec : Snapshot} {s t : State} (h : execRestoreCrq rec s = .next t) :
    s.frontEnd = some .crq ∧ rec.nq = s.crq.nq ∧ t = (s.restored rec).answer .done := by
  unfold execRestoreCrq at h
  split at h
  · cases h
  · rename_i hg
    split at h
    · rename_i hr
      cases h
      exact ⟨migrationGate_none.1 hg, hr, rfl⟩
    · cases h

theorem execResumeCrq_next {s t : State} :
    execResumeCrq s = .next t ↔ s.frontEnd = some .crq ∧
      t = if s.host.snapPhase then
          ({ s.replay with host := { s.replay.host with snapPhase := false } }).answer .done
        else s.answer .done := by
  rw [execResumeCrq, gated_next, migrationGate_none]

end Sys2Proof.Machine
end

