-- ==== Sys2Proof/Laws/PerInstr.lean ====
section
/-! SUPPORT. The statements that are made once for each operation: the packet of a well-formed operation fits the mask,
match and data value of its own row of the opcode table (30_encoding.md rules R95, R96, R99). -/

namespace Sys2Proof.Laws.EncodesOwnRow

/-- The packet the encoder writes fits the row of the operation's mnemonic. -/
def Statement (i : Instr) : Prop :=
  i.wf = true → ∃ r ∈ tableRows, r.mnemonic = i.mnemonic ∧ r.hits (encode i) = true

/-- The bits of the header's three fields. -/
theorem header_bit (w : Bool) (sz : BitVec 3) (off : BitVec 12) (k : Nat) :
    (mmioHeader w sz off).getLsbD k =
      if k < 12 then off.getLsbD k else if k < 15 then sz.getLsbD (k - 12) else (BitVec.ofBool w).getLsbD (k - 15) := by
  simp only [mmioHeader, BitVec.getLsbD_append, show k - 12 < 3 ↔ k < 15 by omega, Nat.sub_sub]

/-- An offset of the register window has no bits in the upper four of OFF. -/
theorem regOffset_high (off : BitVec 8) (k : Nat) (h : 8 ≤ k) : (regOffset off).getLsbD k = false := by
  rw [regOffset, BitVec.getLsbD_append, if_neg (by omega)]
  simp

/-- The header of a register-window access under the mask of D and the upper four bits of OFF. -/
theorem header_window (w : Bool) (sz : BitVec 3) (off : BitVec 8) :
    (mmioHeader w sz (regOffset off)).toNat &&& 0x8F00 = (BitVec.ofBool w ++ 0#15).toNat := by
  have h : mmioHeader w sz (regOffset off) &&& 0x8F00#16 = BitVec.ofBool w ++ 0#15 := by
    apply BitVec.eq_of_getLsbD_eq
    intro k hk
    rw [BitVec.getLsbD_and, header_bit, BitVec.getLsbD_append]
    by_cases h8 : k < 8
    · interval_cases k <;> simp
    · rw [regOffset_high off k (by omega)]
      interval_cases k <;> simp
  exact (BitVec.toNat_and ..).symm.trans (congrArg BitVec.toNat h)

/-- A header under the mask of D. -/
theorem header_write (w : Bool) (sz : BitVec 3) (off : BitVec 12) :
    (mmioHeader w sz off).toNat &&& 0x8000 = (BitVec.ofBool w ++ 0#15).toNat := by
  have h : mmioHeader w sz off &&& 0x8000#16 = BitVec.ofBool w ++ 0#15 := by
    apply BitVec.eq_of_getLsbD_eq
    intro k hk
    rw [BitVec.getLsbD_and, header_bit, BitVec.getLsbD_append]
    interval_cases k <;> simp
  exact (BitVec.toNat_and ..).symm.trans (congrArg BitVec.toNat h)

/-- The header of a write to each command offset, under the mask of D and OFF. -/
theorem header_command : ∀ sz : BitVec 3,
    (mmioHeader true sz 0x040).toNat &&& 0x8FFF = 0x8040 ∧ (mmioHeader true sz 0x048).toNat &&& 0x8FFF = 0x8048
      ∧ (mmioHeader true sz 0x04C).toNat &&& 0x8FFF = 0x804C
      ∧ (mmioHeader true sz 0x008).toNat &&& 0x8FFF = 0x8008 := by decide

/-- An MMIO packet fits a row that asks for no data value. -/
theorem mmio_hits {r : Row} {h : BitVec 16} {v : Long} (hp : r.port = .mmio) (hd : r.data = none)
    (hm : h.toNat &&& r.mask = r.pat) : r.hits (.mmio h v) = true := by
  simp [Row.hits, hp, hd, hm]

/-- A CRQ message of 16 bytes is read back (R91). -/
theorem crq_hits (r : Row) (valid msg : Byte) (len : Half) (data : Word) (rsv : Long) :
    r.hits (crqPacket valid msg len data rsv)
      = (r.port == .crq && (valid ++ msg : BitVec 16).toNat &&& r.mask == r.pat) := rfl

/-- The leading byte of a CRQ message under the mask that takes it alone. -/
theorem tag_and (valid msg : Byte) : (valid ++ msg : BitVec 16).toNat &&& 0xFF00 = valid.toNat * 256 := by
  have h : (valid ++ msg) &&& 0xFF00#16 = valid ++ 0#8 := by
    apply BitVec.eq_of_getLsbD_eq
    intro k hk
    rw [BitVec.getLsbD_and, BitVec.getLsbD_append, BitVec.getLsbD_append]
    interval_cases k <;> simp
  refine ((BitVec.toNat_and ..).symm.trans (congrArg BitVec.toNat h)).trans ?_
  rw [BitVec.toNat_append]
  simp [Nat.shiftLeft_eq]

theorem crbRdReg (sz : BitVec 3) (off : BitVec 8) : Statement (.crbRdReg sz off) :=
  fun _ => ⟨_, List.mem_of_getElem? (i := 0) rfl, rfl, mmio_hits rfl rfl (header_window ..)⟩

theorem crbWrCmdReady (sz : BitVec 3) : Statement (.crbWrCmdReady sz) :=
  fun _ => ⟨_, List.mem_of_getElem? (i := 1) rfl, rfl, by revert sz; decide⟩

theorem crbWrGoIdle (sz : BitVec 3) : Statement (.crbWrGoIdle sz) :=
  fun _ => ⟨_, List.mem_of_getElem? (i := 2) rfl, rfl, by revert sz; decide⟩

theorem crbWrCtrlReqOther (sz : BitVec 3) (v : Long) : Statement (.crbWrCtrlReqOther sz v) :=
  fun _ => ⟨_, List.mem_of_getElem? (i := 3) rfl, rfl, mmio_hits rfl rfl (header_command sz).1⟩

theorem crbWrCancelInvoke (sz : BitVec 3) : Statement (.crbWrCancelInvoke sz) :=
  fun _ => ⟨_, List.mem_of_getElem? (i := 4) rfl, rfl, by revert sz; decide⟩

theorem crbWrCancelOther (sz : BitVec 3) (v : Long) : Statement (.crbWrCancelOther sz v) :=
  fun _ => ⟨_, List.mem_of_getElem? (i := 5) rfl, rfl, mmio_hits rfl rfl (header_command sz).2.1⟩

theorem crbWrStartInvoke (sz : BitVec 3) : Statement (.crbWrStartInvoke sz) :=
  fun _ => ⟨_, List.mem_of_getElem? (i := 6) rfl, rfl, by revert sz; decide⟩

theorem crbWrStartOther (sz : BitVec 3) (v : Long) : Statement (.crbWrStartOther sz v) :=
  fun _ => ⟨_, List.mem_of_getElem? (i := 7) rfl, rfl, mmio_hits rfl rfl (header_command sz).2.2.1⟩

theorem crbWrLocRequestAccess (sz : BitVec 3) : Statement (.crbWrLocRequestAccess sz) :=
  fun _ => ⟨_, List.mem_of_getElem? (i := 8) rfl, rfl, by revert sz; decide⟩

theorem crbWrLocRelinquish (sz : BitVec 3) : Statement (.crbWrLocRelinquish sz) :=
  fun _ => ⟨_, List.mem_of_getElem? (i := 9) rfl, rfl, by revert sz; decide⟩

theorem crbWrLocResetEstablishment (sz : BitVec 3) : Statement (.crbWrLocResetEstablishment sz) :=
  fun _ => ⟨_, List.mem_of_getElem? (i := 10) rfl, rfl, by revert sz; decide⟩

theorem crbWrLocCtrlOther (sz : BitVec 3) (v : Long) : Statement (.crbWrLocCtrlOther sz v) :=
  fun _ => ⟨_, List.mem_of_getElem? (i := 11) rfl, rfl, mmio_hits rfl rfl (header_command sz).2.2.2⟩

theorem crbWrIgnored (sz : BitVec 3) (off : BitVec 8) (v : Long) : Statement (.crbWrIgnored sz off v) :=
  fun _ => ⟨_, List.mem_of_getElem? (i := 12) rfl, rfl, mmio_hits rfl rfl (header_window ..)⟩

theorem crbRdData (sz : BitVec 3) (off12 : BitVec 12) : Statement (.crbRdData sz off12) :=
  fun _ => ⟨_, List.mem_of_getElem? (i := 13) rfl, rfl, mmio_hits rfl rfl (header_write ..)⟩

theorem crbWrData (sz : BitVec 3) (off12 : BitVec 12) (v : Long) : Statement (.crbWrData sz off12 v) :=
  fun _ => ⟨_, List.mem_of_getElem? (i := 14) rfl, rfl, mmio_hits rfl rfl (header_write ..)⟩

theorem crqInitResult (len : Half) (data : Word) (rsv : Long) : Statement (.crqInitResult len data rsv) :=
  fun _ => ⟨_, List.mem_of_getElem? (i := 15) rfl, rfl, by rw [encode, crq_hits]; rfl⟩

theorem crqInitCompleteResult (len : Half) (data : Word) (rsv : Long) : Statement (.crqInitCompleteResult len data rsv) :=
  fun _ => ⟨_, List.mem_of_getElem? (i := 16) rfl, rfl, by rw [encode, crq_hits]; rfl⟩

theorem crqInitOther (msg : Byte) (len : Half) (data : Word) (rsv : Long) : Statement (.crqInitOther msg len data rsv) :=
  fun _ => ⟨_, List.mem_of_getElem? (i := 17) rfl, rfl, by rw [encode, crq_hits, tag_and]; decide⟩

theorem crqTpmCommand (len : Half) (data : Word) (rsv : Long) : Statement (.crqTpmCommand len data rsv) :=
  fun _ => ⟨_, List.mem_of_getElem? (i := 18) rfl, rfl, by rw [encode, crq_hits]; rfl⟩

theorem crqGetVersion (len : Half) (data : Word) (rsv : Long) : Statement (.crqGetVersion len data rsv) :=
  fun _ => ⟨_, List.mem_of_getElem? (i := 19) rfl, rfl, by rw [encode, crq_hits]; rfl⟩

theorem crqGetRtceBufferSize (len : Half) (data : Word) (rsv : Long) : Statement (.crqGetRtceBufferSize len data rsv) :=
  fun _ => ⟨_, List.mem_of_getElem? (i := 20) rfl, rfl, by rw [encode, crq_hits]; rfl⟩

theorem crqPrepareToSuspend (len : Half) (data : Word) (rsv : Long) : Statement (.crqPrepareToSuspend len data rsv) :=
  fun _ => ⟨_, List.mem_of_getElem? (i := 21) rfl, rfl, by rw [encode, crq_hits]; rfl⟩

theorem crqCmdOther (msg : Byte) (len : Half) (data : Word) (rsv : Long) : Statement (.crqCmdOther msg len data rsv) :=
  fun _ => ⟨_, List.mem_of_getElem? (i := 22) rfl, rfl, by rw [encode, crq_hits, tag_and]; decide⟩

theorem crqTagOther (valid : Byte) (msg : Byte) (len : Half) (data : Word) (rsv : Long) : Statement (.crqTagOther valid msg len data rsv) :=
  fun _ => ⟨_, List.mem_of_getElem? (i := 23) rfl, rfl, by rw [encode, crq_hits]; simp⟩

theorem beCompleteCrb (r : Word) (out : List Byte) : Statement (.beCompleteCrb r out) :=
  fun _ => ⟨_, List.mem_of_getElem? (i := 24) rfl, rfl, rfl⟩

theorem beCompleteCrq (r : Word) (out : List Byte) : Statement (.beCompleteCrq r out) :=
  fun _ => ⟨_, List.mem_of_getElem? (i := 25) rfl, rfl, rfl⟩

theorem resetCrb : Statement (.resetCrb) :=
  fun _ => ⟨_, List.mem_of_getElem? (i := 26) rfl, rfl, rfl⟩

theorem resetCrq : Statement (.resetCrq) :=
  fun _ => ⟨_, List.mem_of_getElem? (i := 27) rfl, rfl, rfl⟩

theorem construct (fe : FrontEnd) (present : Bool) : Statement (.construct fe present) :=
  fun _ => ⟨_, List.mem_of_getElem? (i := 28) rfl, rfl, rfl⟩

theorem destroy : Statement (.destroy) :=
  fun _ => ⟨_, List.mem_of_getElem? (i := 29) rfl, rfl, rfl⟩

theorem quiesceCrq : Statement (.quiesceCrq) :=
  fun _ => ⟨_, List.mem_of_getElem? (i := 30) rfl, rfl, rfl⟩

theorem snapshotCrq : Statement (.snapshotCrq) :=
  fun _ => ⟨_, List.mem_of_getElem? (i := 31) rfl, rfl, rfl⟩

theorem restoreCrq (rec : Snapshot) : Statement (.restoreCrq rec) :=
  fun _ => ⟨_, List.mem_of_getElem? (i := 32) rfl, rfl, rfl⟩

theorem resumeCrq : Statement (.resumeCrq) :=
  fun _ => ⟨_, List.mem_of_getElem? (i := 33) rfl, rfl, rfl⟩

theorem quiesceCrb : Statement (.quiesceCrb) :=
  fun _ => ⟨_, List.mem_of_getElem? (i := 34) rfl, rfl, rfl⟩

theorem evtUndefined (code : Byte) : Statement (.evtUndefined code) :=
  fun _ => ⟨_, List.mem_of_getElem? (i := 35) rfl, rfl, by simp [Row.hits, encode]⟩

end Sys2Proof.Laws.EncodesOwnRow
end

