-- ==== Sys2Proof/Laws/Step.lean ====
section
/-! SUPPORT. What a step can do, said once. -/

namespace Sys2Proof.Machine

/-- The input taken is the first enabled one of those raised, and the rest are the others in their order. -/
theorem takeReady_some {s : State} {xs rest : List Input} {x : Input} :
    takeReady s xs = some (x, rest) ↔ ∃ before after, xs = before ++ x :: after ∧ rest = before ++ after ∧
      (∀ y ∈ before, inputReady s y = false) ∧ inputReady s x = true := by
  constructor
  · intro h
    induction xs generalizing rest with
    | nil => simp [takeReady] at h
    | cons y ys ih =>
      unfold takeReady at h
      split at h
      · rename_i hy
        obtain ⟨rfl, rfl⟩ : y = x ∧ ys = rest := by simpa using h
        exact ⟨[], ys, rfl, rfl, by simp, hy⟩
      · rename_i hy
        split at h
        · cases h
        · rename_i z zs hz
          obtain ⟨rfl, rfl⟩ : z = x ∧ y :: zs = rest := by simpa using h
          obtain ⟨before, after, h1, h2, h3, h4⟩ := ih hz
          exact ⟨y :: before, after, by simp [h1], by simp [h2], by simpa [hy] using h3, h4⟩
  · rintro ⟨before, after, rfl, rfl, hb, hx⟩
    induction before with
    | nil => simp [takeReady, hx]
    | cons y ys ih =>
      simp [takeReady, hb y (by simp), ih (fun z hz => hb z (by simp [hz]))]

/-- No input is taken exactly where every input raised is held. -/
theorem takeReady_none {s : State} {xs : List Input} :
    takeReady s xs = none ↔ ∀ x ∈ xs, inputReady s x = false := by
  induction xs with
  | nil => simp [takeReady]
  | cons y ys ih =>
    unfold takeReady
    split
    · simp [*]
    · rename_i hy
      have hy : inputReady s y = false := by simpa using hy
      cases h : takeReady s ys <;> simp_all

/-- A first input that is enabled is the next one. -/
theorem nextInput_head {s : State} {x : Input} {rest : List Input} (hs : s.inputs = x :: rest)
    (hx : inputReady s x = true) : nextInput s = some (x, rest) :=
  takeReady_some.2 ⟨[], rest, hs, rfl, by simp, hx⟩

/-- Everything a step that answers a next state can have done: run one operation, be refused and mark the run, or take
a store of the guest's. -/
theorem step_cases {s t : State} (h : step s = .next t) :
    s.log.refused = false ∧ ∃ x rest, nextInput s = some (x, rest) ∧
      ((∃ p i, x = .packet p ∧ decode p = .ok i ∧ exec i { s with inputs := rest } = .next t)
        ∨ (∃ r, t = ({ s with inputs := rest }).markRefused r)
        ∨ (∃ a bs, x = .guestStore a bs ∧ s.host.snapPhase = false ∧ t = ({ s with inputs := rest }).guestStore a bs)) := by
  unfold step at h
  split at h
  · cases h
  · rename_i hr
    split at h
    · cases h
    · rename_i x rest hx
      refine ⟨by simpa using hr, x, rest, hx, ?_⟩
      cases x with
      | guestStore a bs =>
        rcases settle_next.1 h with h | ⟨r, _, h⟩
        · obtain ⟨hg, h⟩ := gated_next.1 h
          exact .inr (.inr ⟨a, bs, rfl, storeGate_none.1 hg, h⟩)
        · exact .inr (.inl ⟨r, h⟩)
      | packet p =>
        simp only [runInput, runPacket] at h
        split at h
        · rename_i i hi
          rcases settle_next.1 h with h | ⟨r, _, h⟩
          · exact .inl ⟨p, i, rfl, hi, h⟩
          · exact .inr (.inl ⟨r, h⟩)
        · rename_i n _
          exact .inr (.inl ⟨.crqLength n, by simpa [eq_comm] using h⟩)

end Sys2Proof.Machine
end

