-- ==== Sys2Proof/Tests/Slice0.lean ====
section
/-! SUPPORT. Tests: what WellFormed refuses, words written out from 30_encoding.md and what they decode to, single steps
whose results are rows of 95_test_vectors.md, and for every statement with hypotheses a state that meets them. -/

namespace Sys2Proof.Tests

open Sys2Proof.Machine

/-! ## Helpers -/

/-- The state an operation leads to; the state before it where it does not answer. -/
def after (i : Instr) (s : State) : State :=
  match exec i s with
  | .next t => t
  | .fault _ => s
  | .refused _ => s

/-- What an operation answers its caller. -/
def answerOf (i : Instr) (s : State) : Reply := (after i s).reply

/-- The bytes of the messages sent, oldest first; whether each arrived is a draw. -/
def sentBytes (s : State) : List (List Byte) := s.log.sent.map SentMsg.bytes

/-- A CRB device after reset with the buffer size `b`. -/
def crbState (b : Nat) : State := State.afterReset .crb b .v2_0 false false

/-- A CRQ device after reset with the buffer size `b`. -/
def crqState (b : Nat) : State := State.afterReset .crq b .v2_0 false false

/-- `s` with these bytes at the start of the data window. -/
def withWindow (s : State) (bs : List Byte) : State := { s with crb := { s.crb with dw := Memory.ofBytes 1 bs } }

/-- `s` with CTRL_STS holding `w`. -/
def withSts (s : State) (w : Word) : State :=
  { s with crb := { s.crb with regs := { s.crb.regs with ctrlSts := w } } }

/-- A CRB device with a command in flight. -/
def started : State := after (.crbWrStartInvoke 3) (withWindow (crbState 4096) [0x80, 0x01, 0x00, 0x00, 0x00, 0x0C])

/-- The message m1 of V2.8. -/
def m1 : CrqMsg := ⟨0x80, 0x02, 0x000C, 0x00010000, 0x1122334455667788⟩

/-- A CRQ device executing m1. -/
def executing : State :=
  { crqState 4096 with
    crq := { (crqState 4096).crq with vstate := .executing, saved := m1 }
    backend := { (crqState 4096).backend with outstanding := [⟨.crq, 12, 4096⟩] } }

/-- A CRQ device whose response to m1 is deferred in a snapshot phase. -/
def deferredState : State := after (.beCompleteCrq 0 [0x80, 0x01, 0x00, 0x00, 0x00, 0x0A]) (after .quiesceCrq executing)

/-! ## WellFormed: a term each check refuses -/

theorem test_wf_ctrl_req_named : (Instr.crbWrCtrlReqOther 3 0x2).wf = false := by decide
theorem test_wf_ctrl_req_wide : (Instr.crbWrCtrlReqOther 0 0x101).wf = false := by decide
theorem test_wf_cancel : (Instr.crbWrCancelOther 3 0x1).wf = false := by decide
theorem test_wf_start : (Instr.crbWrStartOther 3 0x1).wf = false := by decide
theorem test_wf_loc_ctrl : (Instr.crbWrLocCtrlOther 3 0x8).wf = false := by decide
theorem test_wf_ignored_command : (Instr.crbWrIgnored 3 0x4C 0).wf = false := by decide
theorem test_wf_ignored_wide : (Instr.crbWrIgnored 0 0x50 0x100).wf = false := by decide
theorem test_wf_rd_data : (Instr.crbRdData 3 0x0FF).wf = false := by decide
theorem test_wf_wr_data_offset : (Instr.crbWrData 3 0x0FF 0).wf = false := by decide
theorem test_wf_wr_data_wide : (Instr.crbWrData 6 0x100 0xFF00000000000000).wf = false := by decide
theorem test_wf_init_other : (Instr.crqInitOther 0x02 0 0 0).wf = false := by decide
theorem test_wf_cmd_other : (Instr.crqCmdOther 0x04 0 0 0).wf = false := by decide
theorem test_wf_tag_other : (Instr.crqTagOther 0xC0 0 0 0 0).wf = false := by decide
theorem test_wf_record : (Instr.restoreCrq blankSnapshot).wf = false := by decide
theorem test_wf_event : (Instr.evtUndefined 0x34).wf = false := by decide

/-! ## Decoding: words written out from R92 (D, S, OFF), R91 and R93, with V2.1 -/

theorem test_dec_rd_reg : decode (.mmio 0b0_011_000001001100#16 0) = .ok (.crbRdReg 3 0x4C) := by decide
theorem test_dec_rd_reg_first_last :
    decode (.mmio 0b0_000_000000000000#16 0) = .ok (.crbRdReg 0 0x00)
    ∧ decode (.mmio 0b0_111_000011111111#16 0) = .ok (.crbRdReg 7 0xFF) := by decide
theorem test_dec_cmd_ready : decode (.mmio 0b1_011_000001000000#16 1) = .ok (.crbWrCmdReady 3) := by decide
theorem test_dec_go_idle : decode (.mmio 0b1_000_000001000000#16 2) = .ok (.crbWrGoIdle 0) := by decide
theorem test_dec_ctrl_req_other :
    decode (.mmio 0b1_011_000001000000#16 3) = .ok (.crbWrCtrlReqOther 3 3) := by decide
theorem test_dec_cancel_invoke : decode (.mmio 0b1_011_000001001000#16 1) = .ok (.crbWrCancelInvoke 3) := by decide
theorem test_dec_cancel_other : decode (.mmio 0b1_011_000001001000#16 0) = .ok (.crbWrCancelOther 3 0) := by decide
theorem test_dec_start_invoke : decode (.mmio 0b1_011_000001001100#16 1) = .ok (.crbWrStartInvoke 3) := by decide
theorem test_dec_start_other :
    decode (.mmio 0b1_011_000001001100#16 0x101) = .ok (.crbWrStartOther 3 0x101) := by decide
theorem test_dec_loc_request :
    decode (.mmio 0b1_011_000000001000#16 1) = .ok (.crbWrLocRequestAccess 3) := by decide
theorem test_dec_loc_relinquish :
    decode (.mmio 0b1_011_000000001000#16 2) = .ok (.crbWrLocRelinquish 3) := by decide
theorem test_dec_loc_reset_establishment :
    decode (.mmio 0b1_011_000000001000#16 8) = .ok (.crbWrLocResetEstablishment 3) := by decide
theorem test_dec_loc_seize : decode (.mmio 0b1_011_000000001000#16 4) = .ok (.crbWrLocCtrlOther 3 4) := by decide
theorem test_dec_ignored : decode (.mmio 0b1_000_000001001101#16 1) = .ok (.crbWrIgnored 0 0x4D 1) := by decide
theorem test_dec_rd_data :
    decode (.mmio 0b0_111_000100000000#16 0) = .ok (.crbRdData 7 0x100)
    ∧ decode (.mmio 0b0_000_111111111111#16 0) = .ok (.crbRdData 0 0xFFF) := by decide
theorem test_dec_wr_data :
    decode (.mmio 0b1_011_000100000000#16 0x180) = .ok (.crbWrData 3 0x100 0x180) := by decide
theorem test_dec_init_result :
    decode (.crq [0xC0, 0x01, 0x12, 0x34, 0xDE, 0xAD, 0xBE, 0xEF, 0, 0, 0, 0, 0, 0, 0, 1])
      = .ok (.crqInitResult 0x1234 0xDEADBEEF 1) := by decide
theorem test_dec_init_complete_result :
    decode (.crq [0xC0, 0x02, 0, 0, 0, 0, 0, 0, 0, 0, 0, 0, 0, 0, 0, 0]) = .ok (.crqInitCompleteResult 0 0 0) := by
  decide
theorem test_dec_init_other :
    decode (.crq [0xC0, 0x81, 0, 0, 0, 0, 0, 0, 0, 0, 0, 0, 0, 0, 0, 0]) = .ok (.crqInitOther 0x81 0 0 0) := by
  decide
theorem test_dec_tpm_command :
    decode (.crq [0x80, 0x02, 0x00, 0x0C, 0x00, 0x01, 0x00, 0x00, 0x11, 0x22, 0x33, 0x44, 0x55, 0x66, 0x77, 0x88])
      = .ok (.crqTpmCommand 0x000C 0x00010000 0x1122334455667788) := by decide
theorem test_dec_get_version :
    decode (.crq [0x80, 0x01, 0, 5, 0x11, 0x22, 0x33, 0x44, 0, 0, 0, 0, 0, 0, 0, 0])
      = .ok (.crqGetVersion 5 0x11223344 0) := by decide
theorem test_dec_get_rtce :
    decode (.crq [0x80, 0x03, 0, 0, 0x12, 0x34, 0x56, 0x78, 0, 0, 0, 0, 0, 0, 0, 0])
      = .ok (.crqGetRtceBufferSize 0 0x12345678 0) := by decide
theorem test_dec_prepare_to_suspend :
    decode (.crq [0x80, 0x04, 0, 5, 0xAA, 0xBB, 0xCC, 0xDD, 0, 0, 0, 0, 0, 0, 0, 0])
      = .ok (.crqPrepareToSuspend 5 0xAABBCCDD 0) := by decide
theorem test_dec_cmd_other :
    decode (.crq [0x80, 0x82, 0, 0, 0, 0, 0, 0, 0, 0, 0, 0, 0, 0, 0, 0]) = .ok (.crqCmdOther 0x82 0 0 0) := by decide
theorem test_dec_tag_other :
    decode (.crq [0x81, 0x02, 0, 0, 0, 0, 0, 0, 0, 0, 0, 0, 0, 0, 0, 0]) = .ok (.crqTagOther 0x81 0x02 0 0 0) := by
  decide
theorem test_dec_complete :
    decode (.evt 0x01 { blankOperands with result := 5, out := [0x80] }) = .ok (.beCompleteCrb 5 [0x80])
    ∧ decode (.evt 0x02 { blankOperands with result := 5, out := [0x80] }) = .ok (.beCompleteCrq 5 [0x80]) := by
  decide
theorem test_dec_reset :
    decode (.evt 0x10 blankOperands) = .ok .resetCrb ∧ decode (.evt 0x11 blankOperands) = .ok .resetCrq := by decide
theorem test_dec_construct :
    decode (.evt 0x20 { blankOperands with frontEnd := .crq, backendPresent := true }) = .ok (.construct .crq true)
    ∧ decode (.evt 0x21 blankOperands) = .ok .destroy := by decide
theorem test_dec_migration :
    decode (.evt 0x30 blankOperands) = .ok .quiesceCrq ∧ decode (.evt 0x31 blankOperands) = .ok .snapshotCrq
    ∧ decode (.evt 0x32 blankOperands) = .ok (.restoreCrq blankSnapshot)
    ∧ decode (.evt 0x33 blankOperands) = .ok .resumeCrq ∧ decode (.evt 0x34 blankOperands) = .ok .quiesceCrb := by
  decide
theorem test_dec_undefined :
    decode (.evt 0x00 blankOperands) = .ok (.evtUndefined 0x00)
    ∧ decode (.evt 0x35 blankOperands) = .ok (.evtUndefined 0x35) := by decide
theorem test_dec_short_message : decode (.crq [0xC0, 0x01]) = .error (.crqLength 2) := by decide

/-- The host's numbering: a header alone carries V = 0, and V stands above it. -/
theorem test_table_word :
    decodeTableWord 16 0x304C = some (.crbRdReg 3 0x4C)
    ∧ decodeTableWord 80 0x1B04C = some (.crbWrStartInvoke 3)
    ∧ decodeTableWord 128 0x80030000123456780000000000000000 = some (.crqGetRtceBufferSize 0 0x12345678 0)
    ∧ decodeTableWord 8 0x33 = some .resumeCrq := by decide

/-! ## Encoding -/

theorem test_enc_start : encode (.crbWrStartInvoke 3) = .mmio 0xB04C 0x1 := by decide
theorem test_enc_request : encode (.crbWrLocRequestAccess 3) = .mmio 0xB008 0x1 := by decide
theorem test_enc_data : encode (.crbWrData 3 0x104 0x00000C00) = .mmio 0xB104 0x00000C00 := by decide
theorem test_enc_rtce :
    encode (.crqGetRtceBufferSize 0 0x12345678 0)
      = .crq [0x80, 0x03, 0, 0, 0x12, 0x34, 0x56, 0x78, 0, 0, 0, 0, 0, 0, 0, 0] := by decide

/-! ## Negotiation: V2.2 -/

theorem test_negotiate_crb :
    negotiateCrb 4096 = 3840 ∧ negotiateCrb 3840 = 3840 ∧ negotiateCrb 1024 = 1024 ∧ negotiateCrb 6 = 6 := by decide
theorem test_negotiate_crq :
    negotiateCrq 0 = 4096 ∧ negotiateCrq 1 = 4096 ∧ negotiateCrq 4096 = 4096 ∧ negotiateCrq 4097 = 8192
    ∧ negotiateCrq 5000 = 8192 ∧ negotiateCrq 65536 = 65536 ∧ negotiateCrq 100000 = 102400 := by decide

/-! ## The register window: V2.3, V2.4 -/

theorem test_rd_reg_values :
    answerOf (.crbRdReg 3 0x30) State.reset = .value 4 0x00025811
    ∧ answerOf (.crbRdReg 1 0x31) State.reset = .value 2 0x0258
    ∧ answerOf (.crbRdReg 1 0x33) State.reset = .value 2 0x0000
    ∧ answerOf (.crbRdReg 0 0x59) State.reset = .value 1 0x0F
    ∧ answerOf (.crbRdReg 3 0x5D) State.reset = .value 4 0x00FED401
    ∧ answerOf (.crbRdReg 3 0x44) State.reset = .value 4 0x2 := by decide
theorem test_rd_reg_wide :
    (after (.crbRdReg 7 0x00) State.reset).log.faults = [⟨0x000, 8⟩]
    ∧ answerOf (.crbRdReg 7 0x00) State.reset = .busReject := by decide
theorem test_cmd_ready : (after (.crbWrCmdReady 3) State.reset).crb.regs.ctrlSts = 0x0 := by decide
theorem test_go_idle : (after (.crbWrGoIdle 0) (withSts State.reset 0x1)).crb.regs.ctrlSts = 0x3 := by decide
theorem test_ctrl_req_other : (after (.crbWrCtrlReqOther 3 0x3) State.reset).crb.regs.ctrlSts = 0x2 := by decide
theorem test_ctrl_req_wide :
    (after (.crbWrCmdReady 7) State.reset).crb.regs = CrbRegs.atReset
    ∧ (after (.crbWrCmdReady 7) State.reset).log.faults = [⟨0x040, 8⟩] := by decide
theorem test_cancel_invoke :
    (after (.crbWrCancelInvoke 3) State.reset).log.be = []
    ∧ (after (.crbWrCancelInvoke 3) started).log.be = [.deliver 0 12 3840, .cancel]
    ∧ (after (.crbWrCancelInvoke 3) started).crb.regs.ctrlStart = 1 := by decide
theorem test_cancel_other : (after (.crbWrCancelOther 3 0) started).log.be = [.deliver 0 12 3840] := by decide
theorem test_start_invoke :
    started.crb.regs.ctrlStart = 1 ∧ started.crb.slot = ⟨true, 12, 3840⟩
    ∧ started.backend.outstanding = [⟨.crb, 12, 3840⟩] ∧ started.log.be = [.deliver 0 12 3840] := by decide
theorem test_start_length :
    (after (.crbWrStartInvoke 0) (withWindow State.reset [0x80, 0x01, 0x00, 0x00, 0x0F, 0x01])).log.be
      = [.deliver 0 3840 3840]
    ∧ (after (.crbWrStartInvoke 3) started).log.be = started.log.be := by decide
theorem test_start_other : (after (.crbWrStartOther 3 0) started).crb.regs.ctrlStart = 1 := by decide
theorem test_loc_request :
    (after (.crbWrLocRequestAccess 3) State.reset).crb.regs.locState = 0x82
    ∧ (after (.crbWrLocRequestAccess 3) State.reset).crb.regs.locSts = 0x1 := by decide
theorem test_loc_relinquish :
    (after (.crbWrLocRelinquish 3) (after (.crbWrLocRequestAccess 3) State.reset)).crb.regs.locState = 0x82 := by
  decide
theorem test_loc_reset_establishment :
    (after (.crbWrLocResetEstablishment 3) State.reset).crb.regs = CrbRegs.atReset := by decide
theorem test_loc_seize : (after (.crbWrLocCtrlOther 3 0x4) State.reset).crb.regs = CrbRegs.atReset := by decide
theorem test_ignored :
    (after (.crbWrIgnored 3 0x44 0xFFFFFFFF) State.reset).crb.regs = CrbRegs.atReset
    ∧ answerOf (.crbWrIgnored 3 0x50 0xFFFFFFFF) State.reset = .written := by decide

/-! ## The data window: V2.6 -/

theorem test_wr_data :
    (after (.crbWrData 3 0x104 0x00000C00) State.reset).crb.dw.cells = [(4, 0x00), (5, 0x0C), (6, 0x00), (7, 0x00)] := by
  decide
theorem test_wr_data_edge :
    (after (.crbWrData 3 0x4FE 0x44332211) (crbState 1024)).crb.dw.cells = [(1022, 0x11), (1023, 0x22)]
    ∧ (after (.crbWrData 0 0x500 0x55) (crbState 1024)).crb.dw.cells = [] := by decide
theorem test_rd_data :
    answerOf (.crbRdData 3 0x102) (withWindow State.reset [0x01, 0x02, 0x03, 0x04, 0x05, 0x06, 0x07, 0x08])
      = .value 4 0x06050403 := by decide
theorem test_rd_data_started : started.crb.readByte 9 0 0 = Config.freeByte 9 0 := rfl

/-! ## CRQ messages: V2.7, V2.8 -/

theorem test_init_result :
    sentBytes (after (.crqInitResult 0x1234 0xDEADBEEF 1) (crqState 4096))
      = [[0xC0, 0x01, 0, 0, 0, 0, 0, 0, 0, 0, 0, 0, 0, 0, 0, 0]] := by decide
theorem test_init_complete_result :
    sentBytes (after (.crqInitCompleteResult 0 0 0) executing)
      = [[0xC0, 0x02, 0, 0, 0, 0, 0, 0, 0, 0, 0, 0, 0, 0, 0, 0]] := by decide
theorem test_init_other :
    sentBytes (after (.crqInitOther 0x03 0 0 0) (crqState 4096)) = []
    ∧ answerOf (.crqInitOther 0x03 0 0 0) (crqState 4096) = .ok := by decide
theorem test_get_version :
    sentBytes (after (.crqGetVersion 0 0 0x0102030405060708) (crqState 4096))
      = [[0x80, 0x81, 0, 0, 0, 0, 0, 2, 1, 2, 3, 4, 5, 6, 7, 8]] := by decide
theorem test_get_rtce :
    sentBytes (after (.crqGetRtceBufferSize 0xFFFF 0 0) (crqState 5000))
      = [[0x80, 0x83, 0x20, 0, 0, 0, 0, 0, 0, 0, 0, 0, 0, 0, 0, 0]] := by decide
theorem test_get_rtce_trunc :
    sentBytes (after (.crqGetRtceBufferSize 0 0 0) (crqState 65536))
      = [[0x80, 0x83, 0, 0, 0, 0, 0, 0, 0, 0, 0, 0, 0, 0, 0, 0]] := by decide
theorem test_prepare_to_suspend :
    sentBytes (after (.crqPrepareToSuspend 5 0xAABBCCDD 0) executing)
      = [[0x80, 0x84, 0, 5, 0xAA, 0xBB, 0xCC, 0xDD, 0, 0, 0, 0, 0, 0, 0, 0]] := by decide
theorem test_cmd_other : sentBytes (after (.crqCmdOther 0xFF 0 0 0) (crqState 4096)) = [] := by decide
theorem test_tag_other : answerOf (.crqTagOther 0xFF 0xFF 0 0 0) (crqState 4096) = .ok := by decide
theorem test_tpm_command_busy :
    exec (.crqTpmCommand 0x000A 0x00020000 0) executing = .next { executing with reply := .busy } := rfl
theorem test_tpm_command_copy_in_failed :
    sentBytes ((crqState 4096).acceptCommandWith m1 false true)
      = [[0x80, 0xFF, 0, 0, 0, 0, 0, 3, 0x11, 0x22, 0x33, 0x44, 0x55, 0x66, 0x77, 0x88]]
    ∧ ((crqState 4096).acceptCommandWith m1 false true).crq.vstate = .executing := by decide

/-! ## Completions: V2.5, V2.8 -/

theorem test_complete_crb :
    (after (.beCompleteCrb 0xFFFFFFFF [0x80, 0x01]) (withSts started 0x0)).crb.regs.ctrlSts = 0x1
    ∧ (after (.beCompleteCrb 0xFFFFFFFF [0x80, 0x01]) (withSts started 0x0)).crb.regs.ctrlStart = 0
    ∧ (after (.beCompleteCrb 0 [0x80, 0x01]) (withSts started 0x1)).crb.regs.ctrlSts = 0x1
    ∧ (after (.beCompleteCrb 0 [0x80, 0x01]) started).backend.outstanding = [] := by decide
theorem test_complete_crb_output :
    (after (.beCompleteCrb 0 [0x80, 0x01]) started).crb.dw.cells = [(0, 0x80), (1, 0x01)] := by decide
theorem test_complete_crq :
    (after (.beCompleteCrq 5 [0x80, 0x01, 0x00, 0x00, 0x00, 0x0A]) executing).crq.vstate = .completed
    ∧ (after (.beCompleteCrq 5 []) executing).backend.outstanding = [] := by decide
theorem test_complete_crq_deferred :
    deferredState.crq.deferred = true ∧ sentBytes deferredState = [] ∧ deferredState.log.dma = [] := by decide
theorem test_deliver_response :
    sentBytes (deferredState.deliverResponseWith true true)
      = [[0x80, 0x82, 0x00, 0x0A, 0x00, 0x01, 0x00, 0x00, 0x11, 0x22, 0x33, 0x44, 0x55, 0x66, 0x77, 0x88]]
    ∧ sentBytes (deferredState.deliverResponseWith false true)
      = [[0x80, 0xFF, 0x00, 0x00, 0x00, 0x00, 0x00, 0x04, 0x11, 0x22, 0x33, 0x44, 0x55, 0x66, 0x77, 0x88]] := by
  decide

/-! ## Migration: V2.9 -/

theorem test_quiesce_crq : (after .quiesceCrq (crqState 4096)).host.snapPhase = true := by decide
theorem test_snapshot_held :
    exec .snapshotCrq (after .quiesceCrq executing) = .fault .notEnabled
    ∧ exec .snapshotCrq (crqState 4096) = .fault .notEnabled := ⟨rfl, rfl⟩
theorem test_snapshot_record : exec .snapshotCrq deferredState
    = .next (deferredState.answer (.snapshot deferredState.record)) := rfl
theorem test_restore_size :
    exec (.restoreCrq ⟨.idle, false, m1, 4096, []⟩) (crqState 5000) = .refused .restoreSizeMismatch := rfl
theorem test_restore :
    (after (.restoreCrq ⟨.completed, true, m1, 4096, [0x80]⟩) (crqState 4096)).crq.deferred = true
    ∧ (after (.restoreCrq ⟨.completed, true, m1, 4096, [0x80]⟩) (crqState 4096)).host.snapPhase = true
    ∧ (after (.restoreCrq ⟨.completed, true, m1, 4096, [0x80]⟩) (crqState 4096)).crq.versionCode = 2 := by decide
theorem test_resume :
    (after .resumeCrq deferredState).crq.deferred = false
    ∧ (after .resumeCrq deferredState).host.snapPhase = false
    ∧ (after .resumeCrq deferredState).log.sent.length = 1 ∧ (after .resumeCrq deferredState).log.dma.length = 1 := by
  decide
theorem test_resume_idle : (after .resumeCrq executing).log = executing.log := by decide
theorem test_quiesce_crb : answerOf .quiesceCrb State.reset = .error 2 .migrationBlocked := by decide
theorem test_snapshot_crb : exec .snapshotCrq State.reset = .refused .crbNotMigratable := rfl
theorem test_paused : exec (.crqGetVersion 0 0 0) deferredState = .refused .guestWhilePaused := rfl

/-! ## Construction, reset, destruction: V2.10 -/

theorem test_construct_duplicate :
    answerOf (.construct .crq true) State.reset = .error 1 (.configuration .duplicate) := by decide
theorem test_construct_no_backend :
    answerOf (.construct .crq false) (after .destroy State.reset) = .error 1 (.configuration .noBackend) := by decide
theorem test_construct_small :
    exec (.construct .crb true) (after .destroy (crbState 5)) = .refused .configuration
    ∧ (after (.construct .crb true) (after .destroy (crbState 6))).host.registry = 1 := ⟨rfl, rfl⟩
theorem test_construct_again :
    (after (.construct .crq true) (after .destroy State.reset)).host.registry = 1
    ∧ (after (.construct .crq true) (after .destroy State.reset)).frontEnd = some .crq := by decide
theorem test_destroy : (after .destroy started).host.registry = 0 ∧ (after .destroy started).backend.outstanding = [] := by
  decide
theorem test_not_reset :
    exec (.crbRdReg 3 0x00) (after (.construct .crb true) (after .destroy State.reset)) = .refused .guestBeforeReset :=
  rfl
theorem test_reset_crb :
    (after .resetCrb (withSts started 0x3)).crb.regs = CrbRegs.atReset
    ∧ (after .resetCrb started).log.control = [.startup 3840, .startup 3840]
    ∧ (after .resetCrb started).backend.outstanding = [⟨.crb, 12, 3840⟩] := by decide
theorem test_reset_crb_window : (after .resetCrb started).crb.dw = started.crb.dw := by decide
theorem test_reset_crq :
    (after .resetCrq { deferredState with host := ⟨false, 1⟩ }).crq.vstate = .idle
    ∧ (after .resetCrq deferredState).crq.deferred = false ∧ (after .resetCrq deferredState).crq.saved = m1 := by decide
theorem test_reset_crq_version :
    (after .resetCrq (State.afterReset .crq 4097 .v2_0 false true)).crq.versionCode = 0
    ∧ (after .resetCrq (State.afterReset .crq 4097 .v1_2 false false)).crq.versionCode = 1
    ∧ (after .resetCrq (State.afterReset .crq 4097 .v1_2 false false)).crq.nq = 8192 := by decide
/-- 95_test_vectors.md program P4: HAD_STARTUP_ERROR_0 = 1 and B = 5000. -/
theorem test_startup_error_0 :
    (State.afterReset .crq 5000 .v1_2 true false).crq.versionCode = 0
    ∧ (State.afterReset .crq 5000 .v1_2 true false).crq.nq = 8192
    ∧ (State.afterReset .crq 5000 .v1_2 false true).crq.versionCode = 1 := by decide
theorem test_undefined : exec (.evtUndefined 0x35) State.reset = .refused (.undefinedEvent 0x35) := rfl

/-! ## Hypotheses that are met: one witness for each statement that has some -/

/-- A step from reset with one input. -/
def withInput (s : State) (p : Packet) : State := { s with inputs := [.packet p] }

/-- The state a step leads to. -/
def stepped (s : State) : State :=
  match step s with
  | .next t => t
  | .fault _ => s
  | .refused _ => s

/-- A constructed CRB device before its first reset. -/
def notReset : State := after (.construct .crb true) (after .destroy State.reset)

/-- No device. -/
def noDevice (b : Nat) : State := after .destroy (crbState b)

theorem test_reset_inv : State.reset.Inv := ⟨by decide, by decide, by decide, by decide, by decide, by decide, by decide⟩

theorem test_crq_inv : (crqState 4096).Inv := ⟨by decide, by decide, by decide, by decide, by decide, by decide, by decide⟩

theorem test_hyp_round_trip :
    ∀ i ∈ [Instr.crbRdData 0 0x100, .crbWrData 7 0xFFF 0xFFFFFFFFFFFFFFFF, .crbWrIgnored 3 0x50 0xFFFFFFFF,
      .crbWrLocCtrlOther 0 0x4, .crqCmdOther 0x05 0 0 0, .crqTagOther 0x81 0x02 0 0 0,
      .restoreCrq ⟨.idle, false, m1, 2, [0x80, 0x01]⟩, .evtUndefined 0x35], i.wf = true := by decide
theorem test_hyp_opcode_table :
    dataFits ((0xB04C : BitVec 16).extractLsb' 12 3) 0x101 = true
    ∧ decode (.mmio 0xB04C 0x101) = .ok (.crbWrStartOther 3 0x101)
    ∧ (List.replicate 16 (0 : Byte)).length = 16
    ∧ decode (.crq (List.replicate 16 0)) = .ok (.crqTagOther 0 0 0 0 0) := by decide
theorem test_hyp_other_length :
    (List.replicate 15 (0 : Byte)).length ≠ 16 ∧ (List.replicate 17 (0 : Byte)).length ≠ 16 := by decide
theorem test_hyp_register_read :
    State.reset.GuestReady .crb ∧ accessBytes 0 ≤ 4 ∧ accessBytes 3 ≤ 4 ∧ 4 < accessBytes 4 ∧ 4 < accessBytes 7 := by
  decide
theorem test_hyp_reserved :
    State.reset.GuestReady .crb ∧ accessBytes 3 ≤ 4 ∧ ∀ off ∈ [(0x04 : BitVec 8), 0x07, 0x10, 0x2F, 0x70, 0xFF],
      let w := off.toNat - off.toNat % 4
      w = 0x04 ∨ (0x10 ≤ w ∧ w ≤ 0x2C) ∨ 0x70 ≤ w := by decide
theorem test_hyp_command_registers :
    State.reset.GuestReady .crb ∧ accessBytes 0 ≤ 4
    ∧ ∀ off ∈ [(0x08 : BitVec 8), 0x0B, 0x40, 0x43, 0x48, 0x4B], off.toNat - off.toNat % 4 ∈ [0x08, 0x40, 0x48] := by
  decide
theorem test_hyp_bus_reject :
    State.reset.GuestReady .crb ∧ 4 < accessBytes 4 ∧ registerAccess (.crbWrStartInvoke 4) = some (4, 0x4C)
    ∧ registerAccess (.crbRdReg 7 0xFF) = some (7, 0xFF) := by decide
theorem test_hyp_idle : State.reset.GuestReady .crb ∧ accessBytes 3 ≤ 4 ∧ started.GuestReady .crb := by decide
theorem test_hyp_no_effect :
    started.GuestReady .crb ∧ accessBytes 3 ≤ 4
    ∧ Instr.crbWrIgnored 3 0xFF 1 ∈ [Instr.crbWrCtrlReqOther 3 1, .crbWrCancelOther 3 1, .crbWrStartOther 3 1,
      .crbWrLocRelinquish 3, .crbWrLocResetEstablishment 3, .crbWrLocCtrlOther 3 1, .crbWrIgnored 3 0xFF 1] := by
  decide
theorem test_hyp_cancel : started.GuestReady .crb ∧ State.reset.GuestReady .crb ∧ accessBytes 0 ≤ 4 := by decide
theorem test_hyp_start :
    State.reset.GuestReady .crb ∧ accessBytes 3 ≤ 4 ∧ State.reset.crb.regs.ctrlStart.getLsbD 0 = false
    ∧ started.GuestReady .crb ∧ started.crb.regs.ctrlStart.getLsbD 0 = true := by decide
theorem test_hyp_request_access : State.reset.GuestReady .crb ∧ accessBytes 0 ≤ 4 := by decide
theorem test_hyp_data_read :
    (crbState 1024).GuestReady .crb ∧ 0x100 ≤ (0x100 : BitVec 12).toNat ∧ accessBytes 0 ≤ 1
    ∧ 1023 < min (crbState 1024).crb.nCrb 3840 ∧ (crbState 1024).crb.regs.ctrlStart.getLsbD 0 = false
    ∧ min (crbState 1024).crb.nCrb 3840 ≤ 1024 ∧ started.GuestReady .crb
    ∧ started.crb.regs.ctrlStart.getLsbD 0 = true := by decide
theorem test_hyp_data_write : started.GuestReady .crb ∧ 0x100 ≤ (0x100 : BitVec 12).toNat := by decide
theorem test_hyp_data_write_then_read :
    (crbState 1024).GuestReady .crb ∧ 0x100 ≤ (0x4FC : BitVec 12).toNat
    ∧ (0x4FC : BitVec 12).toNat - 0x100 + accessBytes 3 ≤ min (crbState 1024).crb.nCrb 3840
    ∧ (crbState 1024).crb.regs.ctrlStart.getLsbD 0 = false ∧ dataFits 3 0xFFFFFFFF = true
    ∧ exec (.crbWrData 3 0x4FC 0xFFFFFFFF) (crbState 1024)
        = .next (after (.crbWrData 3 0x4FC 0xFFFFFFFF) (crbState 1024)) :=
  ⟨by decide, by decide, by decide, by decide, by decide, rfl⟩
theorem test_hyp_complete_crb :
    (started.frontEnd = some .crb ∧ ∃ q ∈ started.backend.outstanding, q.frontEnd = .crb)
    ∧ ¬(State.reset.frontEnd = some .crb ∧ ∃ q ∈ State.reset.backend.outstanding, q.frontEnd = .crb) := by decide
theorem test_hyp_complete_crq :
    (executing.frontEnd = some .crq ∧ ∃ q ∈ executing.backend.outstanding, q.frontEnd = .crq)
    ∧ executing.host.snapPhase = false ∧ (after .quiesceCrq executing).host.snapPhase = true
    ∧ ((after .quiesceCrq executing).frontEnd = some .crq
      ∧ ∃ q ∈ (after .quiesceCrq executing).backend.outstanding, q.frontEnd = .crq)
    ∧ ¬((crqState 0).frontEnd = some .crq ∧ ∃ q ∈ (crqState 0).backend.outstanding, q.frontEnd = .crq) := by decide
theorem test_hyp_init : (crqState 4096).GuestReady .crq ∧ executing.GuestReady .crq := by decide
theorem test_hyp_ignored_message :
    executing.GuestReady .crq
    ∧ Instr.crqTagOther 0 0 0 0 0 ∈ [Instr.crqInitOther 0 0 0 0, .crqCmdOther 0 0 0 0, .crqTagOther 0 0 0 0 0] := by
  decide
theorem test_hyp_tpm_command :
    executing.GuestReady .crq ∧ executing.crq.vstate = .executing ∧ (crqState 4096).GuestReady .crq
    ∧ (crqState 4096).crq.vstate ≠ .executing := by decide
theorem test_hyp_busy :
    exec (.crqTpmCommand 0 0 0) executing = .next (after (.crqTpmCommand 0 0 0) executing)
    ∧ (after (.crqTpmCommand 0 0 0) executing).reply = .busy := ⟨rfl, rfl⟩
theorem test_hyp_informational : (crqState 65536).GuestReady .crq := by decide
theorem test_hyp_not_admitted :
    guestAccess (.crbRdReg 3 0) = some .crb ∧ notReset.frontEnd = some .crb ∧ notReset.wasReset = false
    ∧ guestAccess (.crqGetVersion 0 0 0) = some .crq ∧ (after .quiesceCrq executing).frontEnd = some .crq
    ∧ (after .quiesceCrq executing).wasReset = true ∧ (after .quiesceCrq executing).host.snapPhase = true := by decide
theorem test_hyp_wrong_front_end :
    frontEndOf (.crbRdReg 3 0) = some .crb ∧ guestAccess (.crbRdReg 3 0) = some .crb
    ∧ frontEndOf .resetCrb = some .crb ∧ Instr.resetCrb ∈ [Instr.resetCrb, .resetCrq, .quiesceCrq, .quiesceCrb]
    ∧ (noDevice 4096).frontEnd = none ∧ (crqState 4096).frontEnd = some .crq ∧ FrontEnd.crq ≠ .crb
    ∧ Instr.resumeCrq ∈ [Instr.destroy, .snapshotCrq, .restoreCrq blankSnapshot, .resumeCrq] := by decide
theorem test_hyp_quiesce : (crqState 4096).frontEnd = some .crq := by decide
theorem test_hyp_snapshot :
    (crqState 4096).frontEnd = some .crq ∧ (crqState 4096).host.snapPhase = false
    ∧ (after .quiesceCrq executing).frontEnd = some .crq
    ∧ (∃ q ∈ (after .quiesceCrq executing).backend.outstanding, q.frontEnd = .crq)
    ∧ deferredState.frontEnd = some .crq ∧ deferredState.host.snapPhase = true
    ∧ ∀ q ∈ deferredState.backend.outstanding, q.frontEnd ≠ .crq := by decide
theorem test_hyp_restore :
    (crqState 4096).frontEnd = some .crq ∧ blankSnapshot.nq = (crqState 4096).crq.nq
    ∧ (crqState 4097).frontEnd = some .crq ∧ blankSnapshot.nq ≠ (crqState 4097).crq.nq := by decide
theorem test_hyp_resume :
    deferredState.frontEnd = some .crq ∧ deferredState.host.snapPhase = true ∧ deferredState.crq.deferred = true
    ∧ (after .quiesceCrq executing).frontEnd = some .crq ∧ (after .quiesceCrq executing).host.snapPhase = true
    ∧ (after .quiesceCrq executing).crq.deferred = false ∧ executing.frontEnd = some .crq
    ∧ executing.host.snapPhase = false := by decide
theorem test_hyp_not_migratable : State.reset.frontEnd = some .crb := by decide
theorem test_hyp_migration_deferred :
    exec .quiesceCrq executing = .next (after .quiesceCrq executing)
    ∧ exec (.beCompleteCrq 0 [0x80, 0x01, 0x00, 0x00, 0x00, 0x0A]) (after .quiesceCrq executing) = .next deferredState
    ∧ exec .snapshotCrq deferredState = .next (deferredState.answer (.snapshot deferredState.record))
    ∧ (deferredState.answer (.snapshot deferredState.record)).reply = .snapshot deferredState.record
    ∧ (crqState 4096).frontEnd = some .crq ∧ (crqState 4096).crq.nq = executing.crq.nq :=
  ⟨rfl, rfl, rfl, rfl, rfl, rfl⟩
theorem test_hyp_migration_idle :
    let q := after .quiesceCrq (crqState 4096)
    exec .quiesceCrq (crqState 4096) = .next q ∧ exec .snapshotCrq q = .next (q.answer (.snapshot q.record))
    ∧ (crqState 4096).crq.deferred = false := ⟨rfl, rfl, rfl⟩
theorem test_hyp_construct :
    1 ≤ State.reset.host.registry ∧ (noDevice 6).host.registry = 0 ∧ 6 ≤ (noDevice 6).backend.bufferSize
    ∧ (noDevice 0).host.registry = 0 ∧ (FrontEnd.crq = .crb → 6 ≤ (noDevice 0).backend.bufferSize) := by decide
theorem test_hyp_configuration : (noDevice 5).host.registry = 0 ∧ (noDevice 5).backend.bufferSize < 6 := by decide
theorem test_hyp_reset_crb : started.frontEnd = some .crb ∧ notReset.frontEnd = some .crb := by decide
theorem test_hyp_reset_crq : deferredState.frontEnd = some .crq := by decide
theorem test_hyp_destroy : State.reset.frontEnd ≠ none ∧ State.reset.Inv ∧ 6 ≤ State.reset.backend.bufferSize :=
  ⟨by decide, test_reset_inv, by decide⟩
theorem test_hyp_undefined :
    ∀ e ∈ [(0x00 : Byte), 0x03, 0x35, 0xFF],
      e ∉ [(0x01 : Byte), 0x02, 0x10, 0x11, 0x20, 0x21, 0x30, 0x31, 0x32, 0x33, 0x34] := by decide
theorem test_hyp_register_writers :
    exec (.crbWrCmdReady 3) State.reset = .next (after (.crbWrCmdReady 3) State.reset)
    ∧ (after (.crbWrCmdReady 3) State.reset).crb.regs ≠ State.reset.crb.regs := ⟨rfl, by decide⟩
theorem test_hyp_start_bit :
    exec (.beCompleteCrb 0 []) started = .next (after (.beCompleteCrb 0 []) started)
    ∧ started.crb.regs.start = true ∧ (after (.beCompleteCrb 0 []) started).crb.regs.start = false :=
  ⟨rfl, by decide, by decide⟩
theorem test_hyp_sticky :
    exec .resetCrb (withSts started 0x3) = .next (after .resetCrb (withSts started 0x3))
    ∧ (withSts started 0x3).crb.regs.tpmSts = true
    ∧ (after .resetCrb (withSts started 0x3)).crb.regs.tpmSts = false := ⟨rfl, by decide, by decide⟩
theorem test_hyp_step :
    step (withInput State.reset (.mmio 0xB04C 0x1)) = .next (stepped (withInput State.reset (.mmio 0xB04C 0x1))) := rfl
theorem test_hyp_isolated :
    exec (.crbWrCmdReady 3) State.reset = .next (after (.crbWrCmdReady 3) State.reset)
    ∧ frontEndOf (.crbWrCmdReady 3) = some .crb
    ∧ exec .resumeCrq deferredState = .next (after .resumeCrq deferredState)
    ∧ frontEndOf .resumeCrq = some .crq := ⟨rfl, rfl, rfl, rfl⟩
theorem test_hyp_window_writers :
    exec (.crbWrData 0 0x100 0xAA) State.reset = .next (after (.crbWrData 0 0x100 0xAA) State.reset)
    ∧ (after (.crbWrData 0 0x100 0xAA) State.reset).crb.dw ≠ State.reset.crb.dw := ⟨rfl, by decide⟩

/-- A byte of guest memory that is neither the first byte delivered, 0x80, nor the draw a failed write leaves. -/
def otherByte : Byte := if Config.freeByte 4 0 = 0x81 then 0x82 else 0x81

/-- `executing` with that byte at the saved address. -/
def deliverTo : State := { executing with guestMem := ⟨[(0x00010000, otherByte)], 0⟩ }

/-- The byte this completion leaves there: the first byte delivered, or the draw a failed write leaves. -/
theorem test_delivered_byte :
    (after (.beCompleteCrq 0 [0x80, 0x01, 0x00, 0x00, 0x00, 0x01]) deliverTo).guestMem.read 0x00010000
      = if Config.freeBool 4 then 0x80 else Config.freeByte 4 0 := by
  show (State.deliverResponse _).guestMem.read 0x00010000 = _
  rw [deliverResponse_eq]
  have h : ∀ bs : List Byte, bs[0]? = some (if Config.freeBool 4 then 0x80 else Config.freeByte 4 0) →
      ((deliverTo.guestMem).write 0x00010000 bs).read 0x00010000
        = if Config.freeBool 4 then 0x80 else Config.freeByte 4 0 := by
    intro bs hb
    rw [read_write, if_pos (Nat.le_refl _), Nat.sub_self, hb]
    rfl
  refine h _ ?_
  show (if Config.freeBool 4 then [(0x80 : Byte)] else [Config.freeByte 4 0])[0]? = _
  cases Config.freeBool 4 <;> rfl
theorem test_hyp_guest_memory :
    exec (.beCompleteCrq 0 [0x80, 0x01, 0x00, 0x00, 0x00, 0x01]) deliverTo
        = .next (after (.beCompleteCrq 0 [0x80, 0x01, 0x00, 0x00, 0x00, 0x01]) deliverTo)
    ∧ (after (.beCompleteCrq 0 [0x80, 0x01, 0x00, 0x00, 0x00, 0x01]) deliverTo).guestMem.read 0x00010000
        ≠ deliverTo.guestMem.read 0x00010000 := by
  refine ⟨rfl, ?_⟩
  rw [test_delivered_byte]
  show _ ≠ otherByte
  have h : otherByte ≠ 0x80 ∧ otherByte ≠ Config.freeByte 4 0 := by
    unfold otherByte
    split
    · rename_i h; rw [h]; decide
    · rename_i h; exact ⟨by decide, fun e => h e.symm⟩
  split
  · exact h.1.symm
  · exact h.2.symm

theorem test_hyp_crq_writers :
    exec (.restoreCrq ⟨.completed, true, m1, 4096, []⟩) (crqState 4096)
        = .next (after (.restoreCrq ⟨.completed, true, m1, 4096, []⟩) (crqState 4096))
    ∧ (after (.restoreCrq ⟨.completed, true, m1, 4096, []⟩) (crqState 4096)).crq.saved ≠ (crqState 4096).crq.saved
    ∧ (after (.restoreCrq ⟨.completed, true, m1, 4096, []⟩) (crqState 4096)).crq.vstate ≠ (crqState 4096).crq.vstate :=
  ⟨rfl, by decide, by decide⟩
theorem test_hyp_crq_writers_reset :
    let u := after (.construct .crq true) (after .destroy (State.afterReset .crq 4097 .v2_0 false false))
    exec .resumeCrq deferredState = .next (after .resumeCrq deferredState)
    ∧ (after .resumeCrq deferredState).crq.deferred ≠ deferredState.crq.deferred
    ∧ exec .resetCrq u = .next (after .resetCrq u)
    ∧ (after .resetCrq u).crq.nq ≠ u.crq.nq ∧ (after .resetCrq u).crq.versionCode ≠ u.crq.versionCode :=
  ⟨rfl, by decide, rfl, by decide, by decide⟩
theorem test_hyp_growing :
    runInput (.packet (.mmio 0x4000 0)) State.reset = .next (State.reset.busReject 0 5)
    ∧ runInput (.packet (.evt 0x35 blankOperands)) (State.reset.markRefused .noDevice)
      = .next ((State.reset.markRefused .noDevice).markRefused (.undefinedEvent 0x35))
    ∧ (State.reset.markRefused .noDevice).log.refused = true := ⟨rfl, rfl, rfl⟩
theorem test_hyp_reset_invariant :
    (FrontEnd.crb = .crb → 6 ≤ 6) ∧ negotiateCrq 6 ≤ 2 ^ 32 - 1
    ∧ negotiateCrq (2 ^ 32 - 4096) ≤ 2 ^ 32 - 1 ∧ ¬negotiateCrq (2 ^ 32 - 4095) ≤ 2 ^ 32 - 1 := by decide
theorem test_hyp_step_invariant :
    (withInput State.reset (.mmio 0xB04C 0x1)).Inv
    ∧ step (withInput State.reset (.mmio 0xB04C 0x1)) = .next (stepped (withInput State.reset (.mmio 0xB04C 0x1))) :=
  ⟨⟨by decide, by decide, by decide, by decide, by decide, by decide, by decide⟩, rfl⟩
theorem test_hyp_single_request :
    State.reset.Inv ∧ State.reset.SingleRequest ∧ State.reset.crb.regs.start = false
    ∧ exec .resetCrb State.reset = .next (after .resetCrb State.reset)
    ∧ (crqState 4096).Inv ∧ (crqState 4096).SingleRequest ∧ (crqState 4096).crq.vstate ≠ .executing
    ∧ exec .resetCrq (crqState 4096) = .next (after .resetCrq (crqState 4096))
    ∧ exec (.restoreCrq blankSnapshot) (crqState 4096) = .next (after (.restoreCrq blankSnapshot) (crqState 4096)) :=
  ⟨test_reset_inv, by unfold State.SingleRequest; decide, by decide, rfl, test_crq_inv,
    by unfold State.SingleRequest; decide, by decide, rfl, rfl⟩
theorem test_hyp_step_runs :
    (withInput State.reset (.mmio 0xB04C 0x1)).log.refused = false
    ∧ (withInput State.reset (.mmio 0xB04C 0x1)).inputs = [.packet (.mmio 0xB04C 0x1)]
    ∧ decode (.mmio 0xB04C 0x1) = .ok (.crbWrStartInvoke 3)
    ∧ enabled (.crbWrStartInvoke 3) (withInput State.reset (.mmio 0xB04C 0x1)) = true := by decide
/-- 95_test_vectors.md V2.9: a snapshot raised before the quiesce it waits for is "held until quiesce". -/
def heldSnapshot : State :=
  { crqState 4096 with inputs := [.packet (.evt 0x31 blankOperands), .packet (.evt 0x30 blankOperands)] }
theorem test_quiesce_lifts_hold :
    (stepped heldSnapshot).host.snapPhase = true
    ∧ (stepped heldSnapshot).inputs = [.packet (.evt 0x31 blankOperands)]
    ∧ (stepped (stepped heldSnapshot)).inputs = [] := by decide
theorem test_hyp_held :
    heldSnapshot.log.refused = false
    ∧ heldSnapshot.inputs
      = [.packet (.evt 0x31 blankOperands)] ++ .packet (.evt 0x30 blankOperands) :: []
    ∧ (∀ y ∈ [Input.packet (.evt 0x31 blankOperands)], inputReady heldSnapshot y = false)
    ∧ inputReady heldSnapshot (.packet (.evt 0x30 blankOperands)) = true
    ∧ inputReady heldSnapshot (.packet (.crq [0x80])) = true
    ∧ inputReady heldSnapshot (.guestStore 0 []) = true := by decide
theorem test_hyp_stops :
    State.reset.log.refused = false ∧ State.reset.inputs = []
    ∧ (State.reset.markRefused .noDevice).log.refused = true
    ∧ step (State.reset.markRefused .noDevice) = .refused .refusedRun := ⟨rfl, rfl, rfl, rfl⟩
theorem test_hyp_stuck_with_a_held_input :
    step (withInput (crqState 4096) (.evt 0x31 blankOperands)) = .fault .stuck
    ∧ inputReady (crqState 4096) (.packet (.evt 0x01 blankOperands)) = false
    ∧ inputReady (crqState 4096) (.packet (.evt 0x02 blankOperands)) = false := ⟨rfl, by decide, by decide⟩
theorem test_hyp_paused :
    agentOf (.guestStore 0x10000 [0x80]) = .guest ∧ agentOf (.packet (.crq [0x80])) = .guest
    ∧ agentOf (.packet (.mmio 0x3000 0)) = .guest ∧ (after .quiesceCrq executing).host.snapPhase = true
    ∧ (noDevice 4096).host.snapPhase = false := by decide

end Sys2Proof.Tests
end

section
/-! PROOFS. What keeps a register file in use and what keeps the parts of the invariant (`State.Inv`): one lemma for
each kind of update the operations are made of. -/

namespace Sys2Proof.Machine

/-! ## Registers -/

theorem putStart_start (r : CrbRegs) (b : Bool) : (r.putStart b).start = b :=
  (putBit_getLsbD r.ctrlStart 0 0 b (by decide)).trans (if_pos rfl)

theorem noteResult_start (r : CrbRegs) (w : Word) : (r.noteResult w).start = r.start := by
  unfold CrbRegs.noteResult
  split <;> rfl

theorem start_atReset : CrbRegs.atReset.start = false := by decide

theorem start_zero : CrbRegs.zero.start = false := by decide

theorem live_atReset : CrbRegs.atReset.Live := by decide

/-- Legal values in the four words that change keep a register file in use (R42). -/
theorem live_update {r : CrbRegs} (hr : r.Live) {a b c d : Word} (ha : a = 0x80 ∨ a = 0x82) (hb : b = 0 ∨ b = 1)
    (hc : c = 0 ∨ c = 1 ∨ c = 2 ∨ c = 3) (hd : d = 0 ∨ d = 1) :
    { r with locState := a, locSts := b, ctrlSts := c, ctrlStart := d }.Live :=
  ⟨congrArg (fun q : CrbRegs => { q with locState := a, locSts := b, ctrlSts := c, ctrlStart := d }) hr.1,
    ha, hb, hc, hd⟩

/-- Writing tpmSts or tpmIdle leaves only these two bits in CTRL_STS (R31). -/
theorem putBit_ctrlSts {w : Word} (hw : w = 0 ∨ w = 1 ∨ w = 2 ∨ w = 3) (i : Fin 2) (b : Bool) :
    putBit w i b = 0 ∨ putBit w i b = 1 ∨ putBit w i b = 2 ∨ putBit w i b = 3 := by
  rcases hw with rfl | rfl | rfl | rfl <;> revert i b <;> decide

theorem live_putIdle {r : CrbRegs} (hr : r.Live) (b : Bool) : (r.putIdle b).Live := by
  have ⟨_, ha, hb, hc, hd⟩ := hr
  exact live_update hr ha hb (putBit_ctrlSts hc 1 b) hd

theorem live_noteResult {r : CrbRegs} (hr : r.Live) (w : Word) : (r.noteResult w).Live := by
  have ⟨_, ha, hb, hc, hd⟩ := hr
  unfold CrbRegs.noteResult
  split
  · exact hr
  · exact live_update hr ha hb (putBit_ctrlSts hc 0 true) hd

theorem live_putStart {r : CrbRegs} (hr : r.Live) (b : Bool) : (r.putStart b).Live := by
  have ⟨_, ha, hb, hc, hd⟩ := hr
  refine live_update hr ha hb hc ?_
  rcases hd with hd | hd <;> rw [hd] <;> revert b <;> decide

theorem live_requestAccess {r : CrbRegs} (hr : r.Live) : r.requestAccess.Live := by
  have ⟨_, ha, hb, hc, hd⟩ := hr
  refine live_update hr ?_ ?_ hc hd
  · rcases ha with ha | ha <;> rw [ha] <;> decide
  · rcases hb with hb | hb <;> rw [hb] <;> decide

/-! ## What the invariant says of a device that is there -/

namespace State.Inv

variable {s : State}

theorem guestMem_wf (h : s.Inv) : s.guestMem.wf = true := by
  obtain ⟨-, -, hg, -, -⟩ := h.memories
  exact hg

theorem be_lengthsFit (h : s.Inv) : ∀ c ∈ s.log.be, c.lengthsFit := by
  obtain ⟨-, -, -, -, hb⟩ := h.lengths
  exact hb

theorem scr_wf (h : s.Inv) : s.crq.scr.wf = true ∧ ∀ c ∈ s.crq.scr.cells, c.1 < s.crq.nq := by
  obtain ⟨-, hw, -, -, hb⟩ := h.memories
  exact ⟨hw, hb⟩

theorem nCrb_le (h : s.Inv) : s.crb.nCrb ≤ Config.maxWindow := by
  obtain ⟨hn, -⟩ := h.sizes
  exact hn

theorem nq_le (h : s.Inv) : s.crq.nq ≤ Config.maxLength := by
  obtain ⟨-, hn, -⟩ := h.lengths
  exact hn

theorem slot_le (h : s.Inv) :
    s.crb.slot.inLen ≤ s.crb.slot.outLen ∧ s.crb.slot.outLen ≤ Config.maxLength := by
  obtain ⟨-, -, hl, -⟩ := h.lengths
  exact hl

theorem start_eq_valid (h : s.Inv) : s.crb.regs.start = s.crb.slot.valid := by
  obtain ⟨hs, -⟩ := h.slot
  exact hs

theorem live (h : s.Inv) (hf : s.frontEnd = some .crb) (hr : s.wasReset = true) : s.crb.regs.Live := by
  obtain ⟨-, hl⟩ := h.regs
  exact hl hf hr

theorem holds_of_start (h : s.Inv) (hf : s.frontEnd = some .crb) (hs : s.crb.regs.start = true) :
    s.backend.holds .crb = true := by
  obtain ⟨-, hh⟩ := h.slot
  exact hh hf hs

theorem registry_eq (h : s.Inv) : s.host.registry = if s.frontEnd.isSome then 1 else 0 := by
  obtain ⟨hr, -⟩ := h.host
  exact hr

theorem outstanding_of_device (h : s.Inv) :
    ∀ q ∈ s.backend.outstanding, s.frontEnd = some q.frontEnd ∧ s.wasReset = true := by
  obtain ⟨-, ho, -⟩ := h.host
  exact ho

/-- With a request outstanding, the device was reset (R229, R275). -/
theorem wasReset_of_holds (h : s.Inv) {fe : FrontEnd} (hh : s.backend.holds fe = true) : s.wasReset = true := by
  obtain ⟨q, hq, -⟩ := holds_iff.1 hh
  exact (h.outstanding_of_device q hq).2

/-- With REGISTRY at 0 no device exists (R51). -/
theorem frontEnd_of_registry (h : s.Inv) (h0 : s.host.registry = 0) : s.frontEnd = none := by
  have := h.registry_eq
  cases hf : s.frontEnd <;> simp_all

/-- Without a device no request is outstanding (R276). -/
theorem outstanding_nil (h : s.Inv) (hf : s.frontEnd = none) : s.backend.outstanding = [] :=
  List.eq_nil_iff_forall_not_mem.2 fun q hq => by
    have := (h.outstanding_of_device q hq).1
    simp [hf] at this

/-! ## Updates that keep it -/

/-- The invariant does not read the inputs, the draws and the answer; of guest memory it reads the form, of the logs
FAULTS and BE_LOG. -/
theorem frame (h : s.Inv) {m : Memory} {log : Logs} {inputs : List Input} {draws : Nat} {reply : Reply}
    (hm : m.wf = true) (hf : log.faults.Nodup) (hb : ∀ c ∈ log.be, c.lengthsFit) :
    { s with guestMem := m, log := log, inputs := inputs, draws := draws, reply := reply }.Inv := by
  obtain ⟨hdw, hscr, -, hdwB, hscrB⟩ := h.memories
  obtain ⟨hB, hnq, hslot, hreq, -⟩ := h.lengths
  exact ⟨⟨hdw, hscr, hm, hdwB, hscrB⟩, h.sizes, h.regs, h.slot, ⟨hB, hnq, hslot, hreq, hb⟩, h.host, hf⟩

theorem answer (h : s.Inv) (r : Reply) : (s.answer r).Inv := h.frame h.guestMem_wf h.faults h.be_lengthsFit

theorem drew (h : s.Inv) : s.drew.Inv := h.frame h.guestMem_wf h.faults h.be_lengthsFit

theorem takeInputs (h : s.Inv) (rest : List Input) : { s with inputs := rest }.Inv :=
  h.frame h.guestMem_wf h.faults h.be_lengthsFit

theorem markRefused (h : s.Inv) (r : Refusal) : (s.markRefused r).Inv :=
  h.frame h.guestMem_wf h.faults h.be_lengthsFit

theorem busReject (h : s.Inv) (off n : Nat) : (s.busReject off n).Inv :=
  h.frame h.guestMem_wf (addFault_nodup h.faults) h.be_lengthsFit

theorem cancel (h : s.Inv) : s.cancel.Inv :=
  h.frame h.guestMem_wf h.faults (List.forall_mem_append.2 ⟨h.be_lengthsFit, by simp [BeCall.lengthsFit]⟩)

theorem sendWith (h : s.Inv) (ok : Bool) (m : CrqMsg) : (s.sendWith ok m).Inv :=
  h.frame h.guestMem_wf h.faults h.be_lengthsFit

theorem send (h : s.Inv) (m : CrqMsg) : (s.send m).Inv := h.sendWith _ m

theorem logDmaRead (h : s.Inv) (ok : Bool) (addr : Word) (n : Nat) : (s.logDmaRead ok addr n).Inv :=
  h.frame h.guestMem_wf h.faults h.be_lengthsFit

theorem guestStore (h : s.Inv) (addr : Nat) (bytes : List Byte) : (s.guestStore addr bytes).Inv :=
  h.frame (write_wf _ _ h.guestMem_wf) h.faults h.be_lengthsFit

theorem dmaWriteWith (h : s.Inv) (ok : Bool) (addr : Word) (bytes : List Byte) : (s.dmaWriteWith ok addr bytes).Inv :=
  h.frame (write_wf _ _ h.guestMem_wf) h.faults h.be_lengthsFit

theorem deliverResponse (h : s.Inv) : s.deliverResponse.Inv := (h.dmaWriteWith _ _ _).sendWith _ _

/-- A request of the device that was reset, with lengths that fit, may be delivered (R102, R228, R229). -/
theorem deliver (h : s.Inv) {fe : FrontEnd} {inLen outLen : Nat} (hf : s.frontEnd = some fe) (hr : s.wasReset = true)
    (hi : inLen ≤ outLen) (ho : outLen ≤ Config.maxLength) : (s.deliver fe inLen outLen).Inv := by
  obtain ⟨hB, hnq, hslot, hreq, hbe⟩ := h.lengths
  obtain ⟨hreg, hout, hsnap⟩ := h.host
  refine ⟨h.memories, h.sizes, h.regs, ⟨h.start_eq_valid, fun hc hs => ?_⟩, ⟨hB, hnq, hslot, ?_, ?_⟩,
    ⟨hreg, ?_, hsnap⟩, h.faults⟩
  · obtain ⟨q, hq, hqf⟩ := holds_iff.1 (h.holds_of_start hc hs)
    exact holds_iff.2 ⟨q, List.mem_append_left _ hq, hqf⟩
  · exact List.forall_mem_append.2 ⟨hreq, by simp [hi, ho]⟩
  · exact List.forall_mem_append.2 ⟨hbe, by simp [BeCall.lengthsFit, hi, ho]⟩
  · exact List.forall_mem_append.2 ⟨hout, by simp [hf, hr]⟩

/-- A request may complete once no start bit of a CRB device waits for it (R222). -/
theorem retire (h : s.Inv) (fe : FrontEnd) (d : Nat) (hs : s.frontEnd = some .crb → s.crb.regs.start = false) :
    { s with backend := s.backend.retire fe d }.Inv := by
  obtain ⟨hB, hnq, hslot, hreq, hbe⟩ := h.lengths
  obtain ⟨hreg, hout, hsnap⟩ := h.host
  have hsub := retire_subset s.backend fe d
  exact ⟨h.memories, h.sizes, h.regs, ⟨h.start_eq_valid, fun hc hst => by simp [hs hc] at hst⟩,
    ⟨hB, hnq, hslot, fun q hq => hreq q (hsub q hq), hbe⟩,
    ⟨hreg, fun q hq => hout q (hsub q hq), hsnap⟩, h.faults⟩

/-- Registers in use and a slot that mirrors their start bit may replace the old ones (R139). -/
theorem setRegs (h : s.Inv) {r : CrbRegs} {slot : CmdSlot} (hr : r.Live) (hv : r.start = slot.valid)
    (hh : r.start = true → s.backend.holds .crb = true)
    (hl : slot.inLen ≤ slot.outLen ∧ slot.outLen ≤ Config.maxLength) :
    { s with crb := { s.crb with regs := r, slot := slot } }.Inv := by
  obtain ⟨hB, hnq, -, hreq, hbe⟩ := h.lengths
  exact ⟨h.memories, h.sizes, ⟨.inr hr, fun _ _ => hr⟩, ⟨hv, fun _ => hh⟩, ⟨hB, hnq, hl, hreq, hbe⟩, h.host,
    h.faults⟩

/-- A register write that leaves the start bit, on a CRB device in use. -/
theorem setRegs_same_start (h : s.Inv) {r : CrbRegs} (hf : s.frontEnd = some .crb) (hr : r.Live)
    (hs : r.start = s.crb.regs.start) : { s with crb := { s.crb with regs := r } }.Inv :=
  h.setRegs hr (hs.trans h.start_eq_valid) (fun h1 => h.holds_of_start hf (hs ▸ h1)) h.slot_le

theorem setWindow (h : s.Inv) {m : Memory} (hw : m.wf = true) (hb : ∀ c ∈ m.cells, c.1 < Config.maxWindow) :
    { s with crb := { s.crb with dw := m } }.Inv := by
  obtain ⟨-, hscr, hg, -, hscrB⟩ := h.memories
  exact ⟨⟨hw, hscr, hg, hb, hscrB⟩, h.sizes, h.regs, h.slot, h.lengths, h.host, h.faults⟩

/-- A CRQ device of the same N_q, its buffer in canonical form and listing no byte past N_q, may replace the old one. -/
theorem setCrq (h : s.Inv) {c : Crq} (hn : c.nq = s.crq.nq) (hw : c.scr.wf = true)
    (hb : ∀ cell ∈ c.scr.cells, cell.1 < s.crq.nq) : { s with crq := c }.Inv := by
  obtain ⟨hdw, -, hg, hdwB, -⟩ := h.memories
  obtain ⟨hnCrb, hpage, hszb, hszq, hsix⟩ := h.sizes
  obtain ⟨hB, hnq, hslot, hreq, hbe⟩ := h.lengths
  exact ⟨⟨hdw, hw, hg, hdwB, hn ▸ hb⟩, ⟨hnCrb, hn ▸ hpage, hszb, hn ▸ hszq, hsix⟩, h.regs, h.slot,
    ⟨hB, hn ▸ hnq, hslot, hreq, hbe⟩, h.host, h.faults⟩

/-- Only a CRB device is barred from the snapshot phase (R206). -/
theorem setSnapPhase (h : s.Inv) (b : Bool) (hf : s.frontEnd = some .crq) :
    { s with host := { s.host with snapPhase := b } }.Inv := by
  obtain ⟨hreg, hout, -⟩ := h.host
  exact ⟨h.memories, h.sizes, h.regs, h.slot, h.lengths, ⟨hreg, hout, by simp [hf]⟩, h.faults⟩

/-- The invariant does not read HAD_STARTUP_ERROR. -/
theorem startupTpm (h : s.Inv) (n : Nat) : (s.startupTpm n).Inv :=
  ⟨h.memories, h.sizes, h.regs, h.slot, h.lengths, h.host, h.faults⟩

end State.Inv

end Sys2Proof.Machine
end

section
/-! PROOFS. The state every operation leads to keeps the invariant. -/

namespace Sys2Proof.Machine

/-- A DMA read fills at most the bytes asked for (R74). -/
theorem dmaBytes_wf (s : State) (ok : Bool) (addr : Word) (n : Nat) :
    (s.dmaBytes ok addr n).wf = true ∧ ∀ c ∈ (s.dmaBytes ok addr n).cells, c.1 < n := by
  unfold State.dmaBytes
  split
  · exact ⟨ofBytes_wf _ _, fun c hc => by simpa using ofBytes_bound _ _ c hc⟩
  · exact ⟨free_wf _, by simp [Memory.free]⟩

theorem replay_frontEnd (s : State) : s.replay.frontEnd = s.frontEnd := by
  unfold State.replay
  split <;> rfl

namespace State.Inv

variable {s : State}

/-! ## The CRB device -/

theorem putIdle (h : s.Inv) (hg : s.GuestReady .crb) (b : Bool) :
    { s with crb := { s.crb with regs := s.crb.regs.putIdle b } }.Inv := by
  obtain ⟨hf, hr, -⟩ := hg
  exact h.setRegs_same_start hf (live_putIdle (h.live hf hr) b) rfl

theorem requestAccess (h : s.Inv) (hg : s.GuestReady .crb) :
    { s with crb := { s.crb with regs := s.crb.regs.requestAccess } }.Inv := by
  obtain ⟨hf, hr, -⟩ := hg
  exact h.setRegs_same_start hf (live_requestAccess (h.live hf hr)) rfl

/-- The delivery comes first here: with the request outstanding the start bit may be set. -/
theorem startCommand (h : s.Inv) (hg : s.GuestReady .crb) : s.startCommand.Inv := by
  obtain ⟨hf, hr, -⟩ := hg
  have hin : min (hdrSize s.crb.dw) s.crb.nCrb ≤ s.crb.nCrb := Nat.min_le_right _ _
  have hout : s.crb.nCrb ≤ Config.maxLength := h.nCrb_le.trans (by decide)
  exact (h.deliver hf hr hin hout).setRegs (live_putStart (h.live hf hr) true) (putStart_start _ true)
    (fun _ => holds_iff.2 ⟨_, List.mem_append_right _ (List.mem_singleton_self _), rfl⟩) ⟨hin, hout⟩

/-- The bytes of a data-window write that are kept lie below W (R67). -/
theorem writeData (h : s.Inv) (a n : Nat) (v : Long) : { s with crb := s.crb.writeData a n v }.Inv := by
  obtain ⟨hw, -, -, hb, -⟩ := h.memories
  refine h.setWindow (write_wf _ _ hw) fun c hc => ?_
  rcases write_cells _ _ _ c hc with hc | ⟨hlow, hc⟩
  · exact hb c hc
  · have hlen : ((toLeFrom v 0 n).take (s.crb.window - a)).length ≤ s.crb.window - a := List.length_take_le _ _
    have hwin : s.crb.window ≤ Config.maxWindow := Nat.min_le_right _ _
    omega

/-- Start and slot are cleared first here: then the request may be taken off the list. -/
theorem completeCrb (h : s.Inv) (hc : completionEnabled .crb s = true) (r : Word) (out : List Byte) :
    (s.completeCrb r out).Inv := by
  simp only [completionEnabled, Bool.and_eq_true, beq_iff_eq] at hc
  obtain ⟨hf, hh⟩ := hc
  have hstart : ((s.crb.regs.putStart false).noteResult r).start = false := by rw [noteResult_start, putStart_start]
  have hlive := live_noteResult (live_putStart (h.live hf (h.wasReset_of_holds hh)) false) r
  have hregs := h.setRegs (slot := { s.crb.slot with valid := false }) hlive hstart (by simp [hstart]) h.slot_le
  have hdw := hregs.setWindow (ofBytes_wf s.draws (out.take s.crb.nCrb)) fun c hc =>
    ((ofBytes_bound _ _ c hc).trans_le (List.length_take_le _ _)).trans_le h.nCrb_le
  exact (hdw.retire .crb s.draws fun _ => hstart).drew

theorem resetCrb (h : s.Inv) (hf : s.frontEnd = some .crb) : s.resetCrb.Inv := by
  obtain ⟨-, hpage, -, -, hsix⟩ := h.sizes
  obtain ⟨hreg, hout, hsnap⟩ := h.host
  have hreset : ({ s with wasReset := true, crb := { s.crb with
      nCrb := negotiateCrb s.backend.bufferSize
      regs := CrbRegs.atReset
      slot := { s.crb.slot with valid := false } } } : State).Inv :=
    ⟨h.memories, ⟨Nat.min_le_right _ _, hpage, fun _ _ => rfl, by simp [hf], hsix⟩,
      ⟨.inr live_atReset, fun _ _ => live_atReset⟩, ⟨start_atReset, by simp [start_atReset]⟩, h.lengths,
      ⟨hreg, fun q hq => ⟨(hout q hq).1, rfl⟩, hsnap⟩, h.faults⟩
  exact hreset.startupTpm _

/-! ## The CRQ device -/

/-- Given bytes, as many as fit, may fill the scratch buffer. -/
theorem setScratch (h : s.Inv) (v : VState) (m : CrqMsg) (d : Bool) (bytes : List Byte) :
    { s with crq := { s.crq with
      vstate := v, saved := m, deferred := d, scr := Memory.ofBytes s.draws (bytes.take s.crq.nq) } }.Inv :=
  h.setCrq rfl (ofBytes_wf _ _) fun _ hc => (ofBytes_bound _ _ _ hc).trans_le (List.length_take_le _ _)

theorem acceptCommandWith (h : s.Inv) (hg : s.GuestReady .crq) (m : CrqMsg) (dmaOk sendOk : Bool) :
    (s.acceptCommandWith m dmaOk sendOk).Inv := by
  obtain ⟨hf, hr, -⟩ := hg
  obtain ⟨hw, hb⟩ := dmaBytes_wf s dmaOk m.data s.crq.nq
  have hin : min (hdrSize (s.dmaBytes dmaOk m.data s.crq.nq)) s.crq.nq ≤ s.crq.nq := Nat.min_le_right _ _
  have hcopied := h.setCrq (c := { s.crq with
    saved := m, vstate := .executing, scr := s.dmaBytes dmaOk m.data s.crq.nq }) rfl hw hb
  have hdelivered := ((hcopied.logDmaRead dmaOk m.data s.crq.nq).deliver hf hr hin h.nq_le).drew
  cases dmaOk with
  | true => exact hdelivered
  | false => exact hdelivered.sendWith sendOk (vtpmError m errCopyInFailed)

theorem acceptCommand (h : s.Inv) (hg : s.GuestReady .crq) (m : CrqMsg) : (s.acceptCommand m).Inv :=
  h.acceptCommandWith hg m _ _

theorem finishCrq (h : s.Inv) (hf : s.frontEnd = some .crq) (out : List Byte) : (s.finishCrq out).Inv :=
  ((h.retire .crq s.draws (by simp [hf])).setScratch .completed s.crq.saved s.crq.deferred out).drew

theorem setDeferred (h : s.Inv) (b : Bool) : { s with crq := { s.crq with deferred := b } }.Inv :=
  h.setCrq rfl h.scr_wf.1 h.scr_wf.2

theorem deferOrDeliver (h : s.Inv) : s.deferOrDeliver.Inv := by
  unfold State.deferOrDeliver
  split
  · exact h.setDeferred true
  · exact h.deliverResponse

theorem replay (h : s.Inv) : s.replay.Inv := by
  unfold State.replay
  split
  · exact h.deliverResponse.setDeferred false
  · exact h

theorem restored (h : s.Inv) (hf : s.frontEnd = some .crq) (rec : Snapshot) : (s.restored rec).Inv :=
  ((h.setScratch rec.vstate rec.saved rec.deferred rec.scr).setSnapPhase true hf).drew

theorem resetCrq (h : s.Inv) (hf : s.frontEnd = some .crq) : s.resetCrq.Inv := by
  obtain ⟨hdw, hscr, hg, hdwB, -⟩ := h.memories
  obtain ⟨hnCrb, -, -, -, hsix⟩ := h.sizes
  obtain ⟨hregs, -⟩ := h.regs
  obtain ⟨hB, -, hslot, hreq, hbe⟩ := h.lengths
  obtain ⟨hreg, hout, hsnap⟩ := h.host
  exact ⟨⟨hdw, resize_wf _ _ hscr, hg, hdwB, resize_bound _ _ _⟩,
    ⟨hnCrb, Nat.le_max_right _ _, by simp [State.resetCrq, hf], fun _ _ => rfl, hsix⟩,
    ⟨hregs, by simp [State.resetCrq, hf]⟩, h.slot, ⟨hB, hB, hslot, hreq, hbe⟩,
    ⟨hreg, fun q hq => ⟨(hout q hq).1, rfl⟩, hsnap⟩, h.faults⟩

/-! ## Construction and destruction -/

/-- A device may be realised where there is none, on a CRB device with the start bit clear (R270). -/
theorem realise (h : s.Inv) (h0 : s.host.registry = 0) (fe : FrontEnd) (hB : fe = .crb → 6 ≤ s.backend.bufferSize)
    (hs : fe = .crb → s.crb.regs.start = false) :
    { s with frontEnd := some fe, wasReset := false, host := ⟨false, s.host.registry + 1⟩ }.Inv := by
  obtain ⟨hnCrb, hpage, -⟩ := h.sizes
  obtain ⟨hregs, -⟩ := h.regs
  have hout := h.outstanding_nil (h.frontEnd_of_registry h0)
  exact ⟨h.memories, ⟨hnCrb, hpage, by simp, by simp, by simpa using hB⟩, ⟨hregs, by simp⟩,
    ⟨h.start_eq_valid, fun hf hst => by simp [hs (Option.some.inj hf)] at hst⟩, h.lengths,
    ⟨by simp [h0], by simp [hout], fun _ => rfl⟩, h.faults⟩

/-- The constructed CRB device may stand where no device exists (R270). -/
theorem setCrbAtConstruct (h : s.Inv) (hf : s.frontEnd = none) (d : Nat) : { s with crb := Crb.atConstruct d }.Inv := by
  obtain ⟨-, hscr, hg, -, hscrB⟩ := h.memories
  obtain ⟨-, hpage, -⟩ := h.sizes
  obtain ⟨hB, hnq, -, hreq, hbe⟩ := h.lengths
  exact ⟨⟨free_wf d, hscr, hg, by simp [Crb.atConstruct, Memory.free], hscrB⟩,
    ⟨Nat.zero_le _, hpage, by simp [hf], by simp [hf], by simp [hf]⟩, ⟨.inl rfl, by simp [hf]⟩,
    ⟨start_zero, by simp [hf]⟩, ⟨hB, hnq, ⟨Nat.le_refl 0, Nat.zero_le _⟩, hreq, hbe⟩, h.host, h.faults⟩

/-- The constructed CRQ device may stand where no device exists (R270). -/
theorem setCrqAtConstruct (h : s.Inv) (hf : s.frontEnd = none) (d : Nat) : { s with crq := Crq.atConstruct d }.Inv := by
  obtain ⟨hdw, -, hg, hdwB, -⟩ := h.memories
  obtain ⟨hnCrb, -⟩ := h.sizes
  obtain ⟨hB, -, hslot, hreq, hbe⟩ := h.lengths
  exact ⟨⟨hdw, free_wf d, hg, hdwB, by simp [Crq.atConstruct, Memory.free]⟩,
    ⟨hnCrb, Nat.le_refl Config.page, by simp [hf], by simp [hf], by simp [hf]⟩, h.regs, h.slot,
    ⟨hB, show Config.page ≤ Config.maxLength by decide, hslot, hreq, hbe⟩, h.host, h.faults⟩

theorem constructed (h : s.Inv) (h0 : s.host.registry = 0) {fe : FrontEnd}
    (hB : fe = .crb → 6 ≤ s.backend.bufferSize) : (s.constructed fe).Inv := by
  have hf := h.frontEnd_of_registry h0
  cases fe with
  | crb => exact ((h.setCrbAtConstruct hf s.draws).realise h0 .crb hB fun _ => start_zero).drew
  | crq => exact ((h.setCrqAtConstruct hf s.draws).realise h0 .crq nofun nofun).drew

/-- Without a device the conditions on one are void, and REGISTRY goes back to 0 (R276). -/
theorem destroyed (h : s.Inv) (hf : s.frontEnd ≠ none) :
    { s with
      frontEnd := none
      wasReset := false
      host := { s.host with registry := s.host.registry - 1 }
      backend := { s.backend with outstanding := [] } }.Inv := by
  obtain ⟨hnCrb, hpage, -⟩ := h.sizes
  obtain ⟨hregs, -⟩ := h.regs
  obtain ⟨hB, hnq, hslot, -, hbe⟩ := h.lengths
  have hreg : s.host.registry = 1 := by simpa [Option.isSome_iff_ne_none, hf] using h.registry_eq
  exact ⟨h.memories, ⟨hnCrb, hpage, nofun, nofun, nofun⟩, ⟨hregs, nofun⟩, ⟨h.start_eq_valid, nofun⟩,
    ⟨hB, hnq, hslot, nofun, hbe⟩, ⟨by simp [hreg], nofun, nofun⟩, h.faults⟩

end State.Inv

end Sys2Proof.Machine
end

section
/-! PROOFS. Every operation, and so every step, keeps the invariant (O50). -/

namespace Sys2Proof.Machine

/-- A guest write of the register window keeps the invariant if its effect does. -/
theorem crbRegWrite_keeps_inv {sz : BitVec 3} {off : Nat} {s t u : State} (hs : s.Inv)
    (ht : s.GuestReady .crb → t.Inv) (he : crbRegWrite sz off s t = .next u) : u.Inv := by
  obtain ⟨hg, rfl⟩ := crbRegWrite_next.1 he
  split
  · exact hs.busReject off _
  · exact (ht hg).answer .written

/-- A CRQ message dispatch keeps the invariant if its effect does. -/
theorem crqDispatch_keeps_inv {s t u : State} {status : Reply} (ht : s.GuestReady .crq → t.Inv)
    (he : crqDispatch s t status = .next u) : u.Inv := by
  obtain ⟨hg, rfl⟩ := crqDispatch_next.1 he
  exact (ht hg).answer status

/-- Every operation keeps the invariant. -/
theorem exec_keeps_inv {i : Instr} {s t : State} (hs : s.Inv) (he : exec i s = .next t) : t.Inv := by
  cases i
  case crbRdReg sz off =>
    obtain ⟨-, rfl⟩ := execCrbRdReg_next.1 he
    split
    · exact hs.busReject _ _
    · exact hs.answer _
  case crbWrCmdReady => exact crbRegWrite_keeps_inv hs (hs.putIdle · false) he
  case crbWrGoIdle => exact crbRegWrite_keeps_inv hs (hs.putIdle · true) he
  case crbWrCancelInvoke =>
    refine crbRegWrite_keeps_inv hs (fun _ => ?_) he
    split
    · exact hs.cancel
    · exact hs
  case crbWrStartInvoke =>
    refine crbRegWrite_keeps_inv hs (fun hg => ?_) he
    split
    · exact hs
    · exact hs.startCommand hg
  case crbWrLocRequestAccess => exact crbRegWrite_keeps_inv hs hs.requestAccess he
  case crbWrCtrlReqOther | crbWrCancelOther | crbWrStartOther | crbWrLocRelinquish | crbWrLocResetEstablishment
      | crbWrLocCtrlOther | crbWrIgnored =>
    exact crbRegWrite_keeps_inv hs (fun _ => hs) he
  case crbRdData =>
    obtain ⟨-, rfl⟩ := execCrbRdData_next.1 he
    exact hs.drew.answer _
  case crbWrData =>
    obtain ⟨-, rfl⟩ := execCrbWrData_next.1 he
    exact (hs.writeData _ _ _).answer _
  case crqTpmCommand =>
    obtain ⟨hg, ⟨-, rfl⟩ | ⟨-, rfl⟩⟩ := execCrqTpmCommand_next.1 he
    · exact hs.answer .busy
    · exact (hs.acceptCommand hg _).answer .ok
  case crqInitResult | crqInitCompleteResult | crqGetVersion | crqGetRtceBufferSize | crqPrepareToSuspend =>
    exact crqDispatch_keeps_inv (fun _ => hs.send _) he
  case crqInitOther | crqCmdOther | crqTagOther => exact crqDispatch_keeps_inv (fun _ => hs) he
  case beCompleteCrb r out =>
    obtain ⟨hc, rfl⟩ := execBeCompleteCrb_next.1 he
    exact (hs.completeCrb hc r out).answer .done
  case beCompleteCrq r out =>
    obtain ⟨hc, rfl⟩ := (execBeCompleteCrq_next r).1 he
    simp only [completionEnabled, Bool.and_eq_true, beq_iff_eq] at hc
    exact (hs.finishCrq hc.1 out).deferOrDeliver.answer .done
  case resetCrb =>
    obtain ⟨hf, rfl⟩ := execResetCrb_next.1 he
    exact (hs.resetCrb hf).answer .done
  case resetCrq =>
    obtain ⟨hf, rfl⟩ := execResetCrq_next.1 he
    exact (hs.resetCrq hf).answer .done
  case construct =>
    obtain ⟨reason, rfl⟩ | ⟨h0, hB, rfl⟩ := execConstruct_next he
    · exact hs.answer _
    · exact (hs.constructed h0 hB).answer .done
  case destroy =>
    obtain ⟨hf, rfl⟩ := execDestroy_next he
    exact (hs.destroyed hf).answer .done
  case quiesceCrq =>
    obtain ⟨hg, rfl⟩ := gated_next.1 he
    exact (hs.setSnapPhase true (deviceGate_none.1 hg)).answer .done
  case snapshotCrq =>
    obtain ⟨-, -, rfl⟩ := execSnapshotCrq_next he
    exact hs.answer _
  case restoreCrq rec =>
    obtain ⟨hf, -, rfl⟩ := execRestoreCrq_next he
    exact (hs.restored hf rec).answer .done
  case resumeCrq =>
    obtain ⟨hf, rfl⟩ := execResumeCrq_next.1 he
    split
    · exact (hs.replay.setSnapPhase false ((replay_frontEnd s).trans hf)).answer .done
    · exact hs.answer .done
  case quiesceCrb =>
    obtain ⟨-, rfl⟩ := gated_next.1 he
    exact hs.answer _
  case evtUndefined => cases he

/-- Settles O50: a step runs one operation, marks the run refused or takes a store of the guest, and each keeps the
invariant. -/
theorem stepKeepsInvariant : Obligations.StepKeepsInvariant := by
  intro s t hs hstep
  obtain ⟨-, x, rest, -, ⟨p, i, -, -, he⟩ | ⟨r, rfl⟩ | ⟨addr, bytes, -, -, rfl⟩⟩ := step_cases hstep
  · exact exec_keeps_inv (hs.takeInputs rest) he
  · exact (hs.takeInputs rest).markRefused r
  · exact (hs.takeInputs rest).guestStore addr bytes

end Sys2Proof.Machine
end

section
/-! PROOFS. Which input a step takes (O53), and when a step stops (O54). -/

namespace Sys2Proof.Machine

/-- Settles O53: of the inputs raised, `takeReady` gives the first enabled one and the others in their order. -/
theorem stepTakesTheFirstEnabledInput : Obligations.StepTakesTheFirstEnabledInput := by
  intro held rest x s hr hin hheld hx
  have htaken : nextInput s = some (x, held ++ rest) := takeReady_some.2 ⟨held, rest, hin, rfl, hheld, hx⟩
  simp [step, hr, htaken]

/-- An enabled operation answers a next state or is refused: only a completion and a snapshot can be not enabled. -/
theorem exec_not_fault {i : Instr} {s : State} {f : Fault} (he : enabled i s = true) : exec i s ≠ .fault f := by
  cases i
  case crqTpmCommand =>
    simp only [exec, execCrqTpmCommand]
    split <;> exact gated_not_fault
  case beCompleteCrb => simp_all [exec, enabled, execBeCompleteCrb]
  case beCompleteCrq => simp_all [exec, enabled, execBeCompleteCrq]
  case construct =>
    simp only [exec, execConstruct]
    split_ifs <;> nofun
  case destroy =>
    simp only [exec, execDestroy]
    split <;> nofun
  case snapshotCrq =>
    simp only [exec, execSnapshotCrq]
    split
    · nofun
    · rename_i hg
      have hready : snapshotReady s = true := by simpa [enabled, migrationGate_none.1 hg] using he
      simp [hready]
  case restoreCrq =>
    simp only [exec, execRestoreCrq]
    split
    · nofun
    · split_ifs <;> nofun
  case evtUndefined => nofun
  -- every other operation is one gate before one state
  all_goals exact gated_not_fault

theorem settle_fault {s : State} {o : Outcome} {f : Fault} : settle s o = .fault f ↔ o = .fault f := by
  cases o <;> simp [settle]

/-- Taking an enabled input is no fault (log 2). -/
theorem runInput_not_fault {x : Input} {s : State} {f : Fault} (hx : inputReady s x = true) :
    runInput x s ≠ .fault f := by
  cases x with
  | guestStore addr bytes => exact fun h => gated_not_fault (settle_fault.1 h)
  | packet p =>
    simp only [inputReady] at hx
    simp only [runInput, runPacket]
    split
    · rename_i i hi
      rw [hi] at hx
      exact fun h => exec_not_fault hx (settle_fault.1 h)
    · nofun

/-- Taking an input is never refused: a refusal marks the run (log 3). -/
theorem runInput_not_refused {x : Input} {s : State} {r : Refusal} : runInput x s ≠ .refused r := by
  cases x with
  | guestStore addr bytes => exact settle_not_refused _ _ _
  | packet p =>
    simp only [runInput, runPacket]
    split
    · exact settle_not_refused _ _ _
    · nofun

/-- Whether an input is enabled does not depend on the others raised. -/
theorem inputReady_takeInputs (s : State) (rest : List Input) (x : Input) :
    inputReady { s with inputs := rest } x = inputReady s x := rfl

theorem step_of_refused {s : State} (hr : s.log.refused = true) : step s = .refused .refusedRun := by
  simp [step, hr]

/-- With every input held the machine is stuck (R15). -/
theorem step_of_held {s : State} (hr : s.log.refused = false) (hheld : ∀ x ∈ s.inputs, inputReady s x = false) :
    step s = .fault .stuck := by
  have hnone : nextInput s = none := takeReady_none.2 hheld
  simp [step, hr, hnone]

/-- A fault of a step is `stuck`, in a run not refused with every input held. -/
theorem step_fault {s : State} {f : Fault} (h : step s = .fault f) :
    f = .stuck ∧ s.log.refused = false ∧ ∀ x ∈ s.inputs, inputReady s x = false := by
  unfold step at h
  split at h
  · cases h
  · rename_i hr
    split at h
    · rename_i hnone
      cases h
      exact ⟨rfl, by simpa using hr, takeReady_none.1 hnone⟩
    · rename_i x rest hx
      obtain ⟨before, after, -, -, -, hready⟩ := takeReady_some.1 hx
      exact absurd h (runInput_not_fault ((inputReady_takeInputs s rest x).trans hready))

/-- A step is refused only in a run whose REFUSED mark is set. -/
theorem step_refused {s : State} {r : Refusal} (h : step s = .refused r) : s.log.refused = true := by
  unfold step at h
  split at h
  · assumption
  · split at h
    · cases h
    · exact absurd h runInput_not_refused

/-- Settles O54, clause by clause. -/
theorem stepStopsOnlyWhenStuckOrRefused : Obligations.StepStopsOnlyWhenStuckOrRefused := by
  refine ⟨fun s => ⟨fun h => (step_fault h).2, fun ⟨hr, hheld⟩ => step_of_held hr hheld⟩, fun s hr hnil => ?_,
    fun s => step_of_refused, fun s h => ?_, fun s r => step_refused⟩
  · exact step_of_held hr (by simp [hnil])
  · cases (step_fault h).1

end Sys2Proof.Machine
end

section
/-! PROOFS. What one operation can do, said once: the state it leads to, apart from its answer. The statements on what
an operation changes and leaves unchanged are read off it. -/

namespace Sys2Proof.Machine

/-- `Effect s i u`: the operation `i` run on `s` can lead to `u`, apart from the answer it gives. -/
inductive Effect (s : State) : Instr → State → Prop
  | unchanged (i : Instr) : Effect s i s
  /-- A register-window access of more than 4 bytes (R66). -/
  | busReject {i : Instr} (hi : frontEndOf i = some .crb) (off n : Nat) : Effect s i (s.busReject off n)
  | cmdReady (sz : BitVec 3) :
      Effect s (.crbWrCmdReady sz) { s with crb := { s.crb with regs := s.crb.regs.putIdle false } }
  | goIdle (sz : BitVec 3) :
      Effect s (.crbWrGoIdle sz) { s with crb := { s.crb with regs := s.crb.regs.putIdle true } }
  | cancel (sz : BitVec 3) : Effect s (.crbWrCancelInvoke sz) s.cancel
  | start (sz : BitVec 3) : Effect s (.crbWrStartInvoke sz) s.startCommand
  | requestAccess (sz : BitVec 3) :
      Effect s (.crbWrLocRequestAccess sz) { s with crb := { s.crb with regs := s.crb.regs.requestAccess } }
  | readData (sz : BitVec 3) (off : BitVec 12) : Effect s (.crbRdData sz off) s.drew
  | writeData (sz : BitVec 3) (off : BitVec 12) (v : Long) : Effect s (.crbWrData sz off v)
      { s with crb := s.crb.writeData (windowIndex off) (accessBytes sz) v }
  /-- A CRQ message that is answered by one message (R162, R163, R167 to R169). -/
  | send {i : Instr} (hi : frontEndOf i = some .crq) (m : CrqMsg) : Effect s i (s.send m)
  | accept (len : Half) (data : Word) (rsv : Long) :
      Effect s (.crqTpmCommand len data rsv) (s.acceptCommand ⟨tagCmd, msgTpmCommand, len, data, rsv⟩)
  | completeCrb (r : Word) (out : List Byte) : Effect s (.beCompleteCrb r out) (s.completeCrb r out)
  | completeCrq (r : Word) (out : List Byte) : Effect s (.beCompleteCrq r out) (s.finishCrq out).deferOrDeliver
  | resetCrb : Effect s .resetCrb s.resetCrb
  | resetCrq : Effect s .resetCrq s.resetCrq
  | construct (fe : FrontEnd) (present : Bool) : Effect s (.construct fe present) (s.constructed fe)
  | destroy : Effect s .destroy { s with
      frontEnd := none
      wasReset := false
      host := { s.host with registry := s.host.registry - 1 }
      backend := { s.backend with outstanding := [] } }
  | quiesce : Effect s .quiesceCrq { s with host := { s.host with snapPhase := true } }
  | restore (rec : Snapshot) : Effect s (.restoreCrq rec) (s.restored rec)
  | resume : Effect s .resumeCrq { s.replay with host := { s.replay.host with snapPhase := false } }

/-- A guest write of the register window is a BusReject or has its effect. -/
theorem crbRegWrite_effect {i : Instr} {sz : BitVec 3} {off : Nat} {s t u : State} (hi : frontEndOf i = some .crb)
    (ht : Effect s i t) (he : crbRegWrite sz off s t = .next u) : ∃ v r, Effect s i v ∧ u = v.answer r := by
  obtain ⟨-, rfl⟩ := crbRegWrite_next.1 he
  split
  · exact ⟨_, _, .busReject hi off (accessBytes sz), rfl⟩
  · exact ⟨t, .written, ht, rfl⟩

/-- A CRQ message dispatch has its effect. -/
theorem crqDispatch_effect {i : Instr} {s t u : State} {status : Reply} (ht : Effect s i t)
    (he : crqDispatch s t status = .next u) : ∃ v r, Effect s i v ∧ u = v.answer r := by
  obtain ⟨-, rfl⟩ := crqDispatch_next.1 he
  exact ⟨t, status, ht, rfl⟩

/-- Every operation that answers a next state has one of the effects, and gives an answer. -/
theorem exec_effect {i : Instr} {s t : State} (he : exec i s = .next t) : ∃ u r, Effect s i u ∧ t = u.answer r := by
  cases i
  case crbRdReg sz off =>
    obtain ⟨-, rfl⟩ := execCrbRdReg_next.1 he
    split
    · exact ⟨_, _, .busReject rfl off.toNat (accessBytes sz), rfl⟩
    · exact ⟨s, _, .unchanged _, rfl⟩
  case crbWrCmdReady sz => exact crbRegWrite_effect rfl (.cmdReady sz) he
  case crbWrGoIdle sz => exact crbRegWrite_effect rfl (.goIdle sz) he
  case crbWrCancelInvoke sz =>
    refine crbRegWrite_effect rfl ?_ he
    split
    · exact .cancel sz
    · exact .unchanged _
  case crbWrStartInvoke sz =>
    refine crbRegWrite_effect rfl ?_ he
    split
    · exact .unchanged _
    · exact .start sz
  case crbWrLocRequestAccess sz => exact crbRegWrite_effect rfl (.requestAccess sz) he
  case crbWrCtrlReqOther | crbWrCancelOther | crbWrStartOther | crbWrLocRelinquish | crbWrLocResetEstablishment
      | crbWrLocCtrlOther | crbWrIgnored =>
    exact crbRegWrite_effect rfl (.unchanged _) he
  case crbRdData sz off =>
    obtain ⟨-, rfl⟩ := execCrbRdData_next.1 he
    exact ⟨_, _, .readData sz off, rfl⟩
  case crbWrData sz off v =>
    obtain ⟨-, rfl⟩ := execCrbWrData_next.1 he
    exact ⟨_, _, .writeData sz off v, rfl⟩
  case crqTpmCommand len data rsv =>
    obtain ⟨-, ⟨-, rfl⟩ | ⟨-, rfl⟩⟩ := execCrqTpmCommand_next.1 he
    · exact ⟨s, .busy, .unchanged _, rfl⟩
    · exact ⟨_, .ok, .accept len data rsv, rfl⟩
  case crqInitResult | crqInitCompleteResult | crqGetVersion | crqGetRtceBufferSize | crqPrepareToSuspend =>
    exact crqDispatch_effect (.send rfl _) he
  case crqInitOther | crqCmdOther | crqTagOther => exact crqDispatch_effect (.unchanged _) he
  case beCompleteCrb r out =>
    obtain ⟨-, rfl⟩ := execBeCompleteCrb_next.1 he
    exact ⟨_, .done, .completeCrb r out, rfl⟩
  case beCompleteCrq r out =>
    obtain ⟨-, rfl⟩ := (execBeCompleteCrq_next r).1 he
    exact ⟨_, .done, .completeCrq r out, rfl⟩
  case resetCrb =>
    obtain ⟨-, rfl⟩ := execResetCrb_next.1 he
    exact ⟨_, .done, .resetCrb, rfl⟩
  case resetCrq =>
    obtain ⟨-, rfl⟩ := execResetCrq_next.1 he
    exact ⟨_, .done, .resetCrq, rfl⟩
  case construct fe present =>
    obtain ⟨reason, rfl⟩ | ⟨-, -, rfl⟩ := execConstruct_next he
    · exact ⟨s, _, .unchanged _, rfl⟩
    · exact ⟨_, .done, .construct fe present, rfl⟩
  case destroy =>
    obtain ⟨-, rfl⟩ := execDestroy_next he
    exact ⟨_, .done, .destroy, rfl⟩
  case quiesceCrq =>
    obtain ⟨-, rfl⟩ := gated_next.1 he
    exact ⟨_, .done, .quiesce, rfl⟩
  case snapshotCrq =>
    obtain ⟨-, -, rfl⟩ := execSnapshotCrq_next he
    exact ⟨s, _, .unchanged _, rfl⟩
  case restoreCrq rec =>
    obtain ⟨-, -, rfl⟩ := execRestoreCrq_next he
    exact ⟨_, .done, .restore rec, rfl⟩
  case resumeCrq =>
    obtain ⟨-, rfl⟩ := execResumeCrq_next.1 he
    split
    · exact ⟨_, .done, .resume, rfl⟩
    · exact ⟨s, .done, .unchanged _, rfl⟩
  case quiesceCrb =>
    obtain ⟨-, rfl⟩ := gated_next.1 he
    exact ⟨s, _, .unchanged _, rfl⟩
  case evtUndefined => cases he

/-! ## What the compound effects leave and write -/

@[simp] theorem startCommand_regs (s : State) : s.startCommand.crb.regs = s.crb.regs.putStart true := rfl
@[simp] theorem startCommand_dw (s : State) : s.startCommand.crb.dw = s.crb.dw := rfl
@[simp] theorem startCommand_crq (s : State) : s.startCommand.crq = s.crq := rfl
@[simp] theorem startCommand_host (s : State) : s.startCommand.host = s.host := rfl

@[simp] theorem completeCrb_regs (s : State) (r : Word) (out : List Byte) :
    (s.completeCrb r out).crb.regs = (s.crb.regs.putStart false).noteResult r := rfl
@[simp] theorem completeCrb_crq (s : State) (r : Word) (out : List Byte) : (s.completeCrb r out).crq = s.crq := rfl
@[simp] theorem completeCrb_host (s : State) (r : Word) (out : List Byte) : (s.completeCrb r out).host = s.host := rfl
@[simp] theorem completeCrb_log (s : State) (r : Word) (out : List Byte) : (s.completeCrb r out).log = s.log := rfl

@[simp] theorem resetCrb_regs (s : State) : s.resetCrb.crb.regs = CrbRegs.atReset := rfl
@[simp] theorem resetCrb_dw (s : State) : s.resetCrb.crb.dw = s.crb.dw := rfl
@[simp] theorem resetCrb_crq (s : State) : s.resetCrb.crq = s.crq := rfl
@[simp] theorem resetCrb_host (s : State) : s.resetCrb.host = s.host := rfl

@[simp] theorem finishCrq_crb (s : State) (out : List Byte) : (s.finishCrq out).crb = s.crb := rfl
@[simp] theorem finishCrq_host (s : State) (out : List Byte) : (s.finishCrq out).host = s.host := rfl
@[simp] theorem finishCrq_log (s : State) (out : List Byte) : (s.finishCrq out).log = s.log := rfl
@[simp] theorem finishCrq_crq (s : State) (out : List Byte) : (s.finishCrq out).crq =
    { s.crq with scr := Memory.ofBytes s.draws (out.take s.crq.nq), vstate := .completed } := rfl

@[simp] theorem resetCrq_crb (s : State) : s.resetCrq.crb = s.crb := rfl
@[simp] theorem resetCrq_host (s : State) : s.resetCrq.host = s.host := rfl
@[simp] theorem resetCrq_faults (s : State) : s.resetCrq.log.faults = s.log.faults := rfl
@[simp] theorem resetCrq_saved (s : State) : s.resetCrq.crq.saved = s.crq.saved := rfl

@[simp] theorem restored_crb (s : State) (rec : Snapshot) : (s.restored rec).crb = s.crb := rfl
@[simp] theorem restored_registry (s : State) (rec : Snapshot) :
    (s.restored rec).host.registry = s.host.registry := rfl
@[simp] theorem restored_log (s : State) (rec : Snapshot) : (s.restored rec).log = s.log := rfl
@[simp] theorem restored_nq (s : State) (rec : Snapshot) : (s.restored rec).crq.nq = s.crq.nq := rfl
@[simp] theorem restored_versionCode (s : State) (rec : Snapshot) :
    (s.restored rec).crq.versionCode = s.crq.versionCode := rfl

@[simp] theorem deliverResponse_crb (s : State) : s.deliverResponse.crb = s.crb := rfl
@[simp] theorem deliverResponse_crq (s : State) : s.deliverResponse.crq = s.crq := rfl
@[simp] theorem deliverResponse_host (s : State) : s.deliverResponse.host = s.host := rfl

@[simp] theorem deferOrDeliver_crb (s : State) : s.deferOrDeliver.crb = s.crb := by
  unfold State.deferOrDeliver
  split <;> rfl

@[simp] theorem deferOrDeliver_host (s : State) : s.deferOrDeliver.host = s.host := by
  unfold State.deferOrDeliver
  split <;> rfl

@[simp] theorem deferOrDeliver_refused (s : State) : s.deferOrDeliver.log.refused = s.log.refused := by
  unfold State.deferOrDeliver
  split <;> rfl

@[simp] theorem deferOrDeliver_faults (s : State) : s.deferOrDeliver.log.faults = s.log.faults := by
  unfold State.deferOrDeliver
  split <;> rfl

/-- A completion defers the delivery in the snapshot phase and leaves DEFERRED outside it (R172). -/
@[simp] theorem deferOrDeliver_crq (s : State) :
    s.deferOrDeliver.crq = { s.crq with deferred := s.host.snapPhase || s.crq.deferred } := by
  unfold State.deferOrDeliver
  split <;> rename_i h <;> simp [h]

@[simp] theorem replay_crb (s : State) : s.replay.crb = s.crb := by
  unfold State.replay
  split <;> rfl

@[simp] theorem replay_host (s : State) : s.replay.host = s.host := by
  unfold State.replay
  split <;> rfl

@[simp] theorem replay_refused (s : State) : s.replay.log.refused = s.log.refused := by
  unfold State.replay
  split <;> rfl

@[simp] theorem replay_faults (s : State) : s.replay.log.faults = s.log.faults := by
  unfold State.replay
  split <;> rfl

/-- After a replay no delivery is deferred (R205). -/
@[simp] theorem replay_crq (s : State) : s.replay.crq = { s.crq with deferred := false } := by
  unfold State.replay
  split <;> rename_i h
  · rfl
  · simp [← Bool.eq_false_of_not_eq_true h]

@[simp] theorem acceptCommand_crb (s : State) (m : CrqMsg) : (s.acceptCommand m).crb = s.crb := by
  unfold State.acceptCommand State.acceptCommandWith
  split <;> rfl

@[simp] theorem acceptCommand_host (s : State) (m : CrqMsg) : (s.acceptCommand m).host = s.host := by
  unfold State.acceptCommand State.acceptCommandWith
  split <;> rfl

@[simp] theorem acceptCommand_refused (s : State) (m : CrqMsg) :
    (s.acceptCommand m).log.refused = s.log.refused := by
  unfold State.acceptCommand State.acceptCommandWith
  split <;> rfl

@[simp] theorem acceptCommand_faults (s : State) (m : CrqMsg) : (s.acceptCommand m).log.faults = s.log.faults := by
  unfold State.acceptCommand State.acceptCommandWith
  split <;> rfl

/-- An accepted command writes SAVED, VSTATE and SCR (R165). -/
@[simp] theorem acceptCommand_crq (s : State) (m : CrqMsg) : (s.acceptCommand m).crq = { s.crq with
    saved := m, vstate := .executing, scr := s.dmaBytes (Config.freeBool s.draws) m.data s.crq.nq } := by
  unfold State.acceptCommand State.acceptCommandWith
  split <;> rfl

/-- A CRB device is realised with its constructed state, and a CRQ device leaves the CRB one (R270). -/
@[simp] theorem constructed_crb (s : State) (fe : FrontEnd) :
    (s.constructed fe).crb = if fe = .crb then Crb.atConstruct s.draws else s.crb := by
  cases fe <;> rfl

@[simp] theorem constructed_crq (s : State) (fe : FrontEnd) :
    (s.constructed fe).crq = if fe = .crq then Crq.atConstruct s.draws else s.crq := by
  cases fe <;> rfl

@[simp] theorem constructed_log (s : State) (fe : FrontEnd) : (s.constructed fe).log = s.log := by
  cases fe <;> rfl

end Sys2Proof.Machine
end

section
/-! PROOFS. The CRB register file: what reads of its constant words give (O7, O8), and who writes it (O40, O41, O42). -/

namespace Sys2Proof.Machine

/-! ## Reads -/

/-- The reserved words are 0 (R26, R41). -/
theorem word_reserved (r : CrbRegs) {o : Nat} (h : o = 0x04 ∨ (0x10 ≤ o ∧ o ≤ 0x2C) ∨ 0x70 ≤ o) : r.word o = 0 := by
  unfold CrbRegs.word
  split <;> simp at h ⊢

/-- A read of 1 to 4 bytes within a word that is 0 returns 0 (R64). -/
theorem read_zero_word {sz : BitVec 3} {off : BitVec 8} {s : State} (hg : s.GuestReady .crb) (hn : accessBytes sz ≤ 4)
    (hw : s.crb.regs.word (off.toNat - off.toNat % 4) = 0) :
    exec (.crbRdReg sz off) s = .next { s with reply := .value (accessBytes sz) 0 } := by
  have hsub : s.crb.regs.subWord off.toNat (accessBytes sz) = 0 := by simp [CrbRegs.subWord, hw]
  refine execCrbRdReg_next.2 ⟨hg, ?_⟩
  rw [if_neg (by omega), hsub]
  rfl

/-- Settles O7. -/
theorem reservedWordsReadZeroAndIgnoreWrites : Obligations.ReservedWordsReadZeroAndIgnoreWrites := by
  intro sz off v s hg hn w hw
  refine ⟨read_zero_word hg hn (word_reserved s.crb.regs hw), crbRegWrite_next.2 ⟨hg, ?_⟩⟩
  rw [if_neg (by omega)]
  rfl

/-- In a register file in use CTRL_START holds its start bit alone (R33). -/
theorem ctrlStart_of_live {r : CrbRegs} (hr : r.Live) : r.ctrlStart = if r.start then 1 else 0 := by
  obtain ⟨-, -, -, -, h | h⟩ := hr <;> simp [CrbRegs.start, h]

/-- Settles O8: the command registers are constantly 0, and the start bit mirrors the slot. -/
theorem commandRegistersReadZeroAndStartReadsTheSlot : Obligations.CommandRegistersReadZeroAndStartReadsTheSlot := by
  refine fun s hg => ⟨fun sz off hn hoff => read_zero_word hg hn ?_, fun hs => execCrbRdReg_next.2 ⟨hg, ?_⟩⟩
  · simp only [List.mem_cons, List.not_mem_nil, or_false] at hoff
    rcases hoff with h | h | h <;> rw [h] <;> rfl
  · obtain ⟨hf, hr, -⟩ := hg
    have hword : s.crb.regs.word 0x4C = if s.crb.slot.valid then 1 else 0 := by
      rw [← hs.start_eq_valid]
      exact ctrlStart_of_live (hs.live hf hr)
    have hsub : s.crb.regs.subWord 0x4C 4 = if s.crb.slot.valid then 1 else 0 := by
      simp only [CrbRegs.subWord, Nat.reduceMod, Nat.reduceSub, hword]
      cases s.crb.slot.valid <;> decide
    show _ = s.answer (.value 4 ((s.crb.regs.subWord 0x4C 4).setWidth 64))
    rw [hsub]
    cases s.crb.slot.valid <;> rfl

/-! ## Writers -/

@[simp] theorem putIdle_start (r : CrbRegs) (b : Bool) : (r.putIdle b).start = r.start := rfl
@[simp] theorem requestAccess_start (r : CrbRegs) : r.requestAccess.start = r.start := rfl
@[simp] theorem putStart_tpmSts (r : CrbRegs) (b : Bool) : (r.putStart b).tpmSts = r.tpmSts := rfl
@[simp] theorem requestAccess_tpmSts (r : CrbRegs) : r.requestAccess.tpmSts = r.tpmSts := rfl

@[simp] theorem putIdle_tpmSts (r : CrbRegs) (b : Bool) : (r.putIdle b).tpmSts = r.tpmSts :=
  (putBit_getLsbD r.ctrlSts 1 0 b (by decide)).trans (if_neg (by decide))

/-- A completion sets tpmSts or leaves it (R138). -/
theorem noteResult_tpmSts {r : CrbRegs} (h : r.tpmSts = true) (result : Word) : (r.noteResult result).tpmSts = true := by
  unfold CrbRegs.noteResult
  split
  · exact h
  · exact (putBit_getLsbD r.ctrlSts 0 0 true (by decide)).trans (if_pos rfl)

/-- Settles O40: every other effect leaves the register file. -/
theorem registersChangeOnlyByTheirWriters : Obligations.RegistersChangeOnlyByTheirWriters := by
  intro i s t he hne
  obtain ⟨u, r, hu, rfl⟩ := exec_effect he
  cases hu
  case resetCrb | cmdReady | goIdle | start | requestAccess | completeCrb => simp
  case construct fe present => cases fe <;> simp_all
  all_goals exact absurd (by simp) hne

/-- Settles O41: a start sets the bit, and of the writers only the two named here and construction clear it. -/
theorem startBitIsClearedOnlyByCompletionOrReset : Obligations.StartBitIsClearedOnlyByCompletionOrReset := by
  intro i s t he hs ht
  obtain ⟨u, r, hu, rfl⟩ := exec_effect he
  cases hu
  case resetCrb | completeCrb => simp
  case construct fe present => cases fe <;> simp_all
  case start => simp [putStart_start] at ht
  all_goals simp [hs] at ht

/-- Settles O42: a completion can only set the bit. -/
theorem errorStatusIsSticky : Obligations.ErrorStatusIsSticky := by
  intro i s t he hs ht
  obtain ⟨u, r, hu, rfl⟩ := exec_effect he
  cases hu
  case resetCrb => simp
  case construct fe present => cases fe <;> simp_all
  case completeCrb result out =>
    simp [noteResult_tpmSts (r := s.crb.regs.putStart false) hs] at ht
  all_goals simp [hs] at ht

end Sys2Proof.Machine
end

section
/-! PROOFS. Who writes the data window (O45) and the CRQ device (O47), and that the front ends leave each other's state
alone (O44). -/

namespace Sys2Proof.Machine

/-- Settles O45: every other effect leaves the window, reset too. -/
theorem dataWindowChangesOnlyByItsWriters : Obligations.DataWindowChangesOnlyByItsWriters := by
  intro i s t he hne
  obtain ⟨u, r, hu, rfl⟩ := exec_effect he
  cases hu
  case writeData | completeCrb => simp
  case construct fe present => cases fe <;> simp_all
  all_goals exact absurd (by simp) hne

/-- Settles O47: six effects write the device, each the fields its rule names; of an accepted command, a completion and a
replay the lemmas on the device say which. -/
theorem crqStateChangesOnlyByItsWriters : Obligations.CrqStateChangesOnlyByItsWriters := by
  intro i s t he
  obtain ⟨u, r, hu, rfl⟩ := exec_effect he
  cases hu
  case construct fe present => cases fe <;> simp
  case accept | completeCrq | resetCrq | restore | resume => simp
  -- the other effects leave the device, so no premise of a change holds
  all_goals simp

/-- An operation of the CRB front end leaves the CRQ device, its ports and logs, and the host (R60). -/
theorem effect_of_crb {i : Instr} {s u : State} (hu : Effect s i u) (hi : frontEndOf i = some .crb) :
    u.crq = s.crq ∧ u.guestMem = s.guestMem ∧ u.log.sent = s.log.sent ∧ u.log.dma = s.log.dma ∧ u.host = s.host := by
  cases hu
  case send _ hq => simp [hq] at hi
  case accept | completeCrq | resetCrq | construct | destroy | quiesce | restore | resume => simp [frontEndOf] at hi
  all_goals exact ⟨rfl, rfl, rfl, rfl, rfl⟩

/-- An operation of the CRQ front end leaves the CRB device, FAULTS and REGISTRY (R60). -/
theorem effect_of_crq {i : Instr} {s u : State} (hu : Effect s i u) (hi : frontEndOf i = some .crq) :
    u.crb = s.crb ∧ u.log.faults = s.log.faults ∧ u.host.registry = s.host.registry := by
  cases hu
  case busReject _ _ hb => simp [hb] at hi
  case cmdReady | goIdle | cancel | start | requestAccess | readData | writeData | completeCrb | resetCrb | construct
      | destroy => simp [frontEndOf] at hi
  all_goals simp

/-- Settles O44. -/
theorem frontEndsAreIsolated : Obligations.FrontEndsAreIsolated := by
  intro i s t he
  obtain ⟨u, r, hu, rfl⟩ := exec_effect he
  exact ⟨fun hi => by simpa using effect_of_crb hu hi, fun hi => by simpa using effect_of_crq hu hi⟩

end Sys2Proof.Machine
end

section
/-! PROOFS. The observation logs only grow (O48). -/

namespace Sys2Proof.Machine

/-! ## What an operation records -/

/-- The logs `b` are `a` with more recorded: no fault and no mark is lost, and the lists go on at their end (R53). -/
structure Logs.Grows (a b : Logs) : Prop where
  faults : ∀ f ∈ a.faults, f ∈ b.faults
  refused : a.refused = true → b.refused = true
  sent : a.sent <+: b.sent
  dma : a.dma <+: b.dma
  be : a.be <+: b.be

theorem Logs.Grows.refl (a : Logs) : a.Grows a :=
  ⟨fun _ => id, id, List.prefix_rfl, List.prefix_rfl, List.prefix_rfl⟩

/-- Growth in the words of the statement. -/
theorem Logs.Grows.clauses {a b : Logs} (h : a.Grows b) :
    (∀ f ∈ a.faults, f ∈ b.faults) ∧ (a.refused = true → b.refused = true)
      ∧ (∃ xs, b.sent = a.sent ++ xs) ∧ (∃ xs, b.dma = a.dma ++ xs) ∧ (∃ xs, b.be = a.be ++ xs) := by
  obtain ⟨hf, hr, ⟨xs, hs⟩, ⟨ys, hd⟩, ⟨zs, hb⟩⟩ := h
  exact ⟨hf, hr, ⟨xs, hs.symm⟩, ⟨ys, hd.symm⟩, ⟨zs, hb.symm⟩⟩

/-- One response delivery records its write and its message (R173). -/
theorem deliverResponse_grows (s : State) : s.log.Grows s.deliverResponse.log := by
  rw [deliverResponse_eq]
  exact ⟨fun _ => id, id, List.prefix_append _ _, List.prefix_append _ _, List.prefix_rfl⟩

theorem deferOrDeliver_grows (s : State) : s.log.Grows s.deferOrDeliver.log := by
  unfold State.deferOrDeliver
  split
  · exact .refl s.log
  · exact deliverResponse_grows s

theorem replay_grows (s : State) : s.log.Grows s.replay.log := by
  unfold State.replay
  split
  · exact deliverResponse_grows s
  · exact .refl s.log

/-- An accepted command records its DMA read and the delivery to the backend, and after a failed read an error message
(R165). -/
theorem acceptCommand_grows (s : State) (m : CrqMsg) : s.log.Grows (s.acceptCommand m).log := by
  unfold State.acceptCommand State.acceptCommandWith
  split
  · exact ⟨fun _ => id, id, List.prefix_rfl, List.prefix_append _ _, List.prefix_append _ _⟩
  · exact ⟨fun _ => id, id, List.prefix_append _ _, List.prefix_append _ _, List.prefix_append _ _⟩

theorem effect_grows {i : Instr} {s u : State} (hu : Effect s i u) : s.log.Grows u.log := by
  cases hu
  case busReject =>
    exact ⟨fun _ hf => mem_addFault.2 (.inl hf), id, List.prefix_rfl, List.prefix_rfl, List.prefix_rfl⟩
  case cancel | start =>
    exact ⟨fun _ => id, id, List.prefix_rfl, List.prefix_rfl, List.prefix_append _ _⟩
  case resetCrb | resetCrq => exact ⟨fun _ => id, id, List.prefix_rfl, List.prefix_rfl, List.prefix_rfl⟩
  case send => exact ⟨fun _ => id, id, List.prefix_append _ _, List.prefix_rfl, List.prefix_rfl⟩
  case accept => exact acceptCommand_grows s _
  case completeCrq r out => simpa using deferOrDeliver_grows (s.finishCrq out)
  case resume => exact replay_grows s
  case construct => simp [Logs.Grows.refl]
  -- the other effects record nothing the statement speaks of
  all_goals exact .refl s.log

/-- No operation sets the REFUSED mark: `settle` does. -/
theorem effect_refused {i : Instr} {s u : State} (hu : Effect s i u) : u.log.refused = s.log.refused := by
  cases hu
  case construct | accept | completeCrq | resume => simp
  all_goals rfl

theorem exec_grows {i : Instr} {s t : State} (he : exec i s = .next t) : s.log.Grows t.log := by
  obtain ⟨u, r, hu, rfl⟩ := exec_effect he
  simpa using effect_grows hu

/-! ## What a step records -/

theorem markRefused_grows (s : State) (r : Refusal) : s.log.Grows (s.markRefused r).log :=
  ⟨fun _ => id, fun _ => rfl, List.prefix_rfl, List.prefix_rfl, List.prefix_rfl⟩

theorem settle_grows {s t : State} {o : Outcome} (ho : ∀ u, o = .next u → s.log.Grows u.log)
    (h : settle s o = .next t) : s.log.Grows t.log := by
  rcases settle_next.1 h with h | ⟨r, -, rfl⟩
  · exact ho t h
  · exact markRefused_grows s r

/-- Taking an input runs an operation, marks the run or stores into the guest's memory. -/
theorem runInput_grows {x : Input} {s t : State} (h : runInput x s = .next t) : s.log.Grows t.log := by
  cases x with
  | guestStore addr bytes =>
    refine settle_grows (fun u hu => ?_) h
    obtain ⟨-, rfl⟩ := gated_next.1 hu
    exact .refl s.log
  | packet p =>
    simp only [runInput, runPacket] at h
    split at h
    · exact settle_grows (fun _ => exec_grows) h
    · cases h
      exact markRefused_grows s _

/-- A step that answers a next state takes an input. -/
theorem step_next {s t : State} (h : step s = .next t) : ∃ x rest, runInput x { s with inputs := rest } = .next t := by
  unfold step at h
  split at h
  · cases h
  · split at h
    · cases h
    · exact ⟨_, _, h⟩

/-- Settles O48: what every input and operation records comes after what was recorded before it. -/
theorem observationsOnlyGrow : Obligations.ObservationsOnlyGrow := by
  refine ⟨fun x s t h => (runInput_grows h).clauses, fun s t h => ?_, fun i s t h => ?_⟩
  · obtain ⟨x, rest, hx⟩ := step_next h
    have hg := runInput_grows hx
    exact hg.clauses
  · obtain ⟨u, r, hu, rfl⟩ := exec_effect h
    simpa using effect_refused hu

end Sys2Proof.Machine
end

section
/-! PROOFS. A step runs the operation its packet decodes to (O52). -/

namespace Sys2Proof.Machine

/-- Settles O52: the packet is the input taken, and `settle` marks a refused run. -/
theorem stepRunsTheDecodedOperation : Obligations.StepRunsTheDecodedOperation := by
  intro p rest i s hr hin hi he
  have hnext : nextInput s = some (.packet p, rest) := nextInput_head hin (by simpa [inputReady, hi] using he)
  have hstep : step s = settle { s with inputs := rest } (exec i { s with inputs := rest }) := by
    simp [step, hr, hnext, runInput, runPacket, hi]
  rw [hstep]
  cases exec i { s with inputs := rest } <;> rfl

end Sys2Proof.Machine
end

section
/-! PROOFS. The register window: the bytes a read returns (O6), and the rejection of wide accesses (O9). -/

namespace Sys2Proof.Machine

/-- Every register-window access of more than 4 bytes is a BusReject, whatever its effect would be (R66, R120). -/
theorem exec_registerAccess_wide {i : Instr} {sz : BitVec 3} {off : Nat} {s : State}
    (hi : registerAccess i = some (sz, off)) (hg : s.GuestReady .crb) (hn : 4 < accessBytes sz) :
    exec i s = .next (s.busReject off (accessBytes sz)) := by
  have hwrite : ∀ t, crbRegWrite sz off s t = .next (s.busReject off (accessBytes sz)) :=
    fun t => crbRegWrite_next.2 ⟨hg, by rw [if_pos hn]⟩
  cases i
  case crbRdReg sz' off' =>
    obtain ⟨rfl, rfl⟩ : sz' = sz ∧ off'.toNat = off := by simpa [registerAccess] using hi
    exact execCrbRdReg_next.2 ⟨hg, by rw [if_pos hn]⟩
  case crbWrCmdReady | crbWrGoIdle | crbWrCtrlReqOther | crbWrCancelInvoke | crbWrCancelOther | crbWrStartInvoke
      | crbWrStartOther | crbWrLocRequestAccess | crbWrLocRelinquish | crbWrLocResetEstablishment
      | crbWrLocCtrlOther | crbWrIgnored =>
    cases hi
    exact hwrite _
  all_goals cases hi

/-- The rejection in the words of the statements: FAULTS gains that one member and nothing else changes (R249). -/
theorem registerAccess_wide_records {i : Instr} {sz : BitVec 3} {off : Nat} {s : State}
    (hi : registerAccess i = some (sz, off)) (hg : s.GuestReady .crb) (hn : 4 < accessBytes sz) :
    ∃ fs, exec i s = .next { s with log := { s.log with faults := fs }, reply := .busReject }
      ∧ ∀ f, f ∈ fs ↔ f ∈ s.log.faults ∨ f = ⟨off, accessBytes sz⟩ :=
  ⟨addFault s.log.faults ⟨off, accessBytes sz⟩, exec_registerAccess_wide hi hg hn, fun _ => mem_addFault⟩

/-- Settles O9: a data-window access leaves the logs, and its answer is a value or an acknowledgement. -/
theorem wideRegisterAccessIsBusReject : Obligations.WideRegisterAccessIsBusReject := by
  refine ⟨fun _ _ _ _ => registerAccess_wide_records,
    fun sz off v s hg => ⟨accessBytes_pos sz, accessBytes_le sz, ?_, ?_⟩⟩
  · exact ⟨_, execCrbRdData_next.2 ⟨hg, rfl⟩, by simp, by simp⟩
  · exact ⟨_, execCrbWrData_next.2 ⟨hg, rfl⟩, by simp, by simp⟩

/-- Byte `k` of a register read: the enclosing word's byte inside the access and the word, else 0 (R64). -/
theorem byteOf_subWord (r : CrbRegs) (off n k : Nat) :
    byteOf ((r.subWord off n).setWidth 64) k =
      if k < n ∧ off % 4 + k < 4 then wordByte (r.word (off - off % 4)) (off % 4 + k) else 0 := by
  apply BitVec.eq_of_getLsbD_eq
  intro j hj
  have hbit : 8 * (off % 4) + (8 * k + j) = 8 * (off % 4 + k) + j := by omega
  simp only [byteOf, CrbRegs.subWord, BitVec.getLsbD_extractLsb', BitVec.getLsbD_setWidth, BitVec.getLsbD_and,
    BitVec.getLsbD_ushiftRight, BitVec.getLsbD_ofNat, Nat.testBit_two_pow_sub_one, hbit]
  split
  case isTrue h =>
    have hin : 8 * k + j < 64 ∧ 8 * k + j < 32 ∧ 8 * k + j < 8 * n := by omega
    simp [hj, hin]
  case isFalse h =>
    by_cases hn : 8 * k + j < 8 * n
    · have hpast : 32 ≤ 8 * (off % 4 + k) + j := by omega
      simp [BitVec.getLsbD_of_ge _ _ hpast]
    · simp [hn]

/-- Settles O6. -/
theorem registerReadGivesSubWord : Obligations.RegisterReadGivesSubWord := by
  intro sz off s hg
  refine ⟨fun hn => ⟨_, execCrbRdReg_next.2 ⟨hg, ?_⟩, fun k _ => byteOf_subWord s.crb.regs off.toNat _ k⟩,
    registerAccess_wide_records rfl hg⟩
  rw [if_neg (by omega)]
  rfl

end Sys2Proof.Machine
end

section
/-! PROOFS. The data window: a byte after a write, and reads of what was written (O17). -/

namespace Sys2Proof.Machine

@[simp] theorem writeData_window (c : Crb) (a n : Nat) (v : Long) : (c.writeData a n v).window = c.window := rfl

/-- A byte of the window after a write: the value's byte inside the access and below W, else the byte before (R67). -/
theorem writeData_read (c : Crb) (a n i : Nat) (v : Long) :
    (c.writeData a n v).dw.read i = if a ≤ i ∧ i < a + n ∧ i < c.window then byteOf v (i - a) else c.dw.read i := by
  simp only [Crb.writeData, read_write, List.getElem?_take]
  by_cases ha : a ≤ i
  · by_cases hin : i < a + n ∧ i < c.window
    · have hlt : i - a < c.window - a := by omega
      simp [ha, hin, hlt, toLeFrom_getElem? v 0 n (i - a) (by omega)]
    · by_cases hw : i - a < c.window - a
      · have hlen : (toLeFrom v 0 n)[i - a]? = none := List.getElem?_eq_none (by simp; omega)
        simp [ha, hin, hw, hlen]
      · simp [ha, hin, hw]
  · simp [ha]

/-- While idle a read inside the window gives the bytes a write put there (R67). -/
theorem readByte_writeData (c : Crb) (d a n k : Nat) (v : Long) (hk : k < n) (hw : a + n ≤ c.window)
    (hs : c.regs.start = false) : (c.writeData a n v).readByte d a k = byteOf v k := by
  have hin : a + k < c.window := by omega
  simp [Crb.readByte, writeData_read, hin, hs, hk]

/-- The little-endian value of the bytes read is V[8n-1:0] (R11, R67). -/
theorem leValue_readFrom_writeData (c : Crb) (d a : Nat) (sz : BitVec 3) (v : Long)
    (hw : a + accessBytes sz ≤ c.window) (hs : c.regs.start = false) :
    leValue ((c.writeData a (accessBytes sz) v).readFrom d a 0 (accessBytes sz)) = keepBytes sz v := by
  refine long_ext fun k hk => ?_
  rw [byteOf_leValue _ k hk, byteOf_keepBytes sz v k hk]
  split
  case isTrue h => simp [readFrom_getElem? _ d a 0 _ k h, readByte_writeData c d a _ k v h hw hs]
  case isFalse h => simp [Nat.le_of_not_lt h]

/-- An admitted data-window read answers its value and uses one draw (R134; log 5). -/
theorem exec_crbRdData {sz : BitVec 3} {off : BitVec 12} {s : State} (hg : s.GuestReady .crb) :
    exec (.crbRdData sz off) s = .next { s with
      draws := s.draws + 1
      reply := .value (accessBytes sz) (leValue (s.crb.readFrom s.draws (windowIndex off) 0 (accessBytes sz))) } :=
  execCrbRdData_next.2 ⟨hg, rfl⟩

/-- What a CRB access writes in its device and answers is nothing to the admission of the next one. -/
theorem guestReady_crb_answer {s : State} {fe : FrontEnd} (hg : s.GuestReady fe) (c : Crb) (r : Reply) :
    (({ s with crb := c }).answer r).GuestReady fe := hg

/-- Settles O17: the value fits its width, so no byte of it is lost. -/
theorem dataWindowReadReturnsWhatWasWritten : Obligations.DataWindowReadReturnsWhatWasWritten := by
  intro sz off v s t hg _ hw hs hv he
  obtain ⟨-, rfl⟩ := execCrbWrData_next.1 he
  refine ⟨s.draws + 1, ?_⟩
  have hread := leValue_readFrom_writeData s.crb s.draws (windowIndex off) sz v hw hs
  rw [exec_crbRdData (guestReady_crb_answer hg _ _)]
  simp only [answer_draws, answer_crb, hread, eq_of_beq hv]

end Sys2Proof.Machine
end

section
/-! PROOFS. Guest memory changes only by a delivery (O46). -/

namespace Sys2Proof.Machine

@[simp] theorem startCommand_guestMem (s : State) : s.startCommand.guestMem = s.guestMem := rfl
@[simp] theorem completeCrb_guestMem (s : State) (r : Word) (out : List Byte) :
    (s.completeCrb r out).guestMem = s.guestMem := rfl
@[simp] theorem resetCrb_guestMem (s : State) : s.resetCrb.guestMem = s.guestMem := rfl
@[simp] theorem resetCrq_guestMem (s : State) : s.resetCrq.guestMem = s.guestMem := rfl
@[simp] theorem restored_guestMem (s : State) (rec : Snapshot) : (s.restored rec).guestMem = s.guestMem := rfl

@[simp] theorem acceptCommand_guestMem (s : State) (m : CrqMsg) : (s.acceptCommand m).guestMem = s.guestMem := by
  unfold State.acceptCommand State.acceptCommandWith
  split <;> rfl

@[simp] theorem constructed_guestMem (s : State) (fe : FrontEnd) : (s.constructed fe).guestMem = s.guestMem := by
  cases fe <;> rfl

/-- `s.InDelivery a`: a delivery from `s` writes the byte at `a`, one of the `responseLength` bytes at the saved address
(R173). -/
def State.InDelivery (s : State) (a : Nat) : Prop :=
  s.crq.saved.data.toNat ≤ a ∧ a < s.crq.saved.data.toNat + s.crq.responseLength

/-- The delivered length in the words of the statement (R173). -/
theorem responseLength_eq (c : Crq) : c.responseLength = min (headerSize c.scr) c.nq := rfl

/-- A delivery changes only the bytes of its range, failed or not (R173; log 17). -/
theorem inDelivery_of_deliverResponse {s : State} {a : Nat}
    (h : s.deliverResponse.guestMem.read a ≠ s.guestMem.read a) : s.InDelivery a := by
  by_contra hout
  have hout : a < s.crq.saved.data.toNat ∨ s.crq.saved.data.toNat + s.crq.responseLength ≤ a := by
    unfold State.InDelivery at hout
    omega
  refine h ?_
  rw [deliverResponse_eq]
  exact read_write_outside _ _ _ _ (by split <;> simpa using hout)

theorem inDelivery_of_deferOrDeliver {s : State} {a : Nat}
    (h : s.deferOrDeliver.guestMem.read a ≠ s.guestMem.read a) : s.InDelivery a := by
  unfold State.deferOrDeliver at h
  split at h
  · exact absurd rfl h
  · exact inDelivery_of_deliverResponse h

theorem inDelivery_of_replay {s : State} {a : Nat} (h : s.replay.guestMem.read a ≠ s.guestMem.read a) :
    s.InDelivery a := by
  unfold State.replay at h
  split at h
  · exact inDelivery_of_deliverResponse h
  · exact absurd rfl h

/-- Settles O46: only a completion and a replay deliver, and each leaves the buffer it delivered. -/
theorem guestMemoryChangesOnlyByDelivery : Obligations.GuestMemoryChangesOnlyByDelivery := by
  intro i s t a he hne
  obtain ⟨u, r, hu, rfl⟩ := exec_effect he
  cases hu
  case completeCrq r out =>
    have hin : (s.finishCrq out).InDelivery a := inDelivery_of_deferOrDeliver hne
    refine ⟨.inl ⟨r, out, rfl⟩, ?_⟩
    simpa [State.InDelivery, responseLength_eq] using hin
  case resume =>
    have hin : s.InDelivery a := inDelivery_of_replay hne
    refine ⟨.inr rfl, ?_⟩
    simpa [State.InDelivery, responseLength_eq] using hin
  -- the other effects leave guest memory
  all_goals exact absurd (by simp) hne

end Sys2Proof.Machine
end

section
/-! PROOFS. The decoder on what the encoder writes: the fields of an MMIO header, the decoder on each kind of MMIO
access, a CRQ message read back from its bytes (O3), and the round trip (O1). -/

namespace Sys2Proof.Machine

open Laws.EncodesOwnRow

/-! ## The fields of an MMIO header (R92) -/

@[simp] theorem mmioHeader_size (w : Bool) (sz : BitVec 3) (off : BitVec 12) :
    (mmioHeader w sz off).extractLsb' 12 3 = sz :=
  (BitVec.extractLsb'_append_eq_of_le (Nat.le_refl 12)).trans BitVec.extractLsb'_append_eq_right

@[simp] theorem mmioHeader_offset (w : Bool) (sz : BitVec 3) (off : BitVec 12) :
    (mmioHeader w sz off).extractLsb' 0 12 = off := BitVec.extractLsb'_append_eq_right

@[simp] theorem mmioHeader_regOffset (w : Bool) (sz : BitVec 3) (off : BitVec 8) :
    (mmioHeader w sz (regOffset off)).extractLsb' 0 8 = off :=
  (BitVec.extractLsb'_append_eq_of_add_le (by decide)).trans BitVec.extractLsb'_append_eq_right

/-- Every header is D, S and OFF. -/
theorem mmioHeader_fields (h : BitVec 16) :
    mmioHeader (h.getLsbD 15) (h.extractLsb' 12 3) (h.extractLsb' 0 12) = h := by
  apply BitVec.eq_of_getLsbD_eq
  intro k hk
  rw [header_bit, BitVec.getLsbD_extractLsb', BitVec.getLsbD_extractLsb']
  by_cases hoff : k < 12
  · simp [hoff]
  · by_cases hsz : k < 15
    · have hback : 12 + (k - 12) = k ∧ k - 12 < 3 := by omega
      simp [hoff, hsz, hback]
    · obtain rfl : k = 15 := by omega
      simp

@[simp] theorem mmioHeader_eq_iff {w : Bool} {sz : BitVec 3} {off : BitVec 12} {h : BitVec 16} :
    mmioHeader w sz off = h ↔ w = h.getLsbD 15 ∧ sz = h.extractLsb' 12 3 ∧ off = h.extractLsb' 0 12 := by
  constructor
  · rintro rfl
    refine ⟨?_, by simp, by simp⟩
    rw [header_bit]
    simp
  · rintro ⟨rfl, rfl, rfl⟩
    exact mmioHeader_fields h

theorem mmioHeader_and (w : Bool) (sz : BitVec 3) (off m : BitVec 12) :
    mmioHeader w sz off &&& mmioHeader true 0 m = mmioHeader w 0 (off &&& m) := by
  rw [mmioHeader, mmioHeader, mmioHeader, BitVec.and_append, BitVec.and_append, BitVec.ofBool_and_ofBool]
  simp

/-! The MMIO rows have three masks: D alone, D with the upper four bits of OFF, D with OFF (R95). -/

@[simp] theorem maskMatch_direction (w : Bool) (sz : BitVec 3) (off : BitVec 12) (p : BitVec 16) :
    maskMatch (mmioHeader w sz off) 0x8000#16 p = (mmioHeader w 0 0 == p) := by
  rw [maskMatch, show 0x8000#16 = mmioHeader true 0 0 from rfl, mmioHeader_and]
  simp

@[simp] theorem maskMatch_window (w : Bool) (sz : BitVec 3) (off : BitVec 12) (p : BitVec 16) :
    maskMatch (mmioHeader w sz off) 0x8F00#16 p = (mmioHeader w 0 (off &&& 0xF00) == p) := by
  rw [maskMatch, show 0x8F00#16 = mmioHeader true 0 0xF00 from rfl, mmioHeader_and]

@[simp] theorem maskMatch_offset (w : Bool) (sz : BitVec 3) (off : BitVec 12) (p : BitVec 16) :
    maskMatch (mmioHeader w sz off) 0x8FFF#16 p = (mmioHeader w 0 off == p) := by
  rw [maskMatch, show 0x8FFF#16 = mmioHeader true 0 (BitVec.allOnes 12) from rfl, mmioHeader_and, BitVec.and_allOnes]

/-! ## Offsets in the footprint -/

/-- An offset of the footprint is one of the register window or lies past it. -/
theorem offset_cases (off : BitVec 12) : (∃ o, off = regOffset o) ∨ 0x100 ≤ off.toNat := by
  refine or_iff_not_imp_right.2 fun h => ⟨.ofNat 8 off.toNat, BitVec.eq_of_toNat_eq ?_⟩
  rw [regOffset, BitVec.toNat_append]
  simp
  omega

@[simp] theorem regOffset_and_window (off : BitVec 8) : regOffset off &&& 0xF00#12 = 0#12 := by
  rw [regOffset, show 0xF00#12 = 0xF#4 ++ 0#8 from rfl, BitVec.and_append]
  simp

/-- An offset past the register window has one of its upper four bits set. -/
theorem and_window_ne_zero {off : BitVec 12} (h : 0x100 ≤ off.toNat) : off &&& 0xF00#12 ≠ 0#12 := by
  have hoff : off.extractLsb' 8 4 ++ off.extractLsb' 0 8 = off := BitVec.extractLsb'_append_extractLsb'
  intro h0
  have hhigh : off.extractLsb' 8 4 = 0#4 := by
    rwa [← hoff, show 0xF00#12 = BitVec.allOnes 4 ++ 0#8 from rfl, BitVec.and_append, BitVec.and_allOnes,
      BitVec.and_zero, show 0#12 = 0#4 ++ 0#8 from rfl, BitVec.append_left_inj] at h0
  have hnat := congrArg BitVec.toNat hhigh
  rw [BitVec.extractLsb'_toNat, Nat.shiftRight_eq_div_pow] at hnat
  have hlt := off.isLt
  simp at hnat
  omega

/-- None of the four command offsets (R65, R95). -/
abbrev NoCommand (off : BitVec 12) : Prop := off ≠ 0x008#12 ∧ off ≠ 0x040#12 ∧ off ≠ 0x048#12 ∧ off ≠ 0x04C#12

theorem noCommand_regOffset {off : BitVec 8} (h : off ∉ commandOffsets) : NoCommand (regOffset off) := by
  have hinj : ∀ o, regOffset off = regOffset o → off = o := fun o => (BitVec.append_right_inj (0#4)).1
  exact ⟨fun e => h (hinj 0x08 e ▸ by decide), fun e => h (hinj 0x40 e ▸ by decide),
    fun e => h (hinj 0x48 e ▸ by decide), fun e => h (hinj 0x4C e ▸ by decide)⟩

theorem noCommand_of_data {off : BitVec 12} (h : 0x100 ≤ off.toNat) : NoCommand off := by
  refine ⟨?_, ?_, ?_, ?_⟩ <;> rintro rfl <;> exact absurd h (by decide)

/-! ## The decoder on each kind of MMIO access (R95) -/

theorem keepBytes_of_dataFits {sz : BitVec 3} {v : Long} (h : dataFits sz v = true) : keepBytes sz v = v :=
  eq_of_beq h

/-- The data values that rows ask for fit every width. -/
theorem keepBytes_named : ∀ sz, keepBytes sz 0x1#64 = 0x1#64 ∧ keepBytes sz 0x2#64 = 0x2#64
    ∧ keepBytes sz 0x8#64 = 0x8#64 := by decide

theorem decodeMmio_readRegister (sz : BitVec 3) (off : BitVec 8) (v : Long) :
    decodeMmio (mmioHeader false sz (regOffset off)) v = .crbRdReg sz off := by
  simp [decodeMmio]

theorem decodeMmio_readData {off : BitVec 12} (h : 0x100 ≤ off.toNat) (sz : BitVec 3) (v : Long) :
    decodeMmio (mmioHeader false sz off) v = .crbRdData sz off := by
  simp [decodeMmio, and_window_ne_zero h]

theorem decodeMmio_writeCtrlReq (sz : BitVec 3) (v : Long) :
    decodeMmio (mmioHeader true sz 0x040#12) v =
      if keepBytes sz v = 0x1#64 then .crbWrCmdReady sz
      else if keepBytes sz v = 0x2#64 then .crbWrGoIdle sz
      else .crbWrCtrlReqOther sz (keepBytes sz v) := by
  simp [decodeMmio]

theorem decodeMmio_writeCancel (sz : BitVec 3) (v : Long) :
    decodeMmio (mmioHeader true sz 0x048#12) v =
      if keepBytes sz v = 0x1#64 then .crbWrCancelInvoke sz else .crbWrCancelOther sz (keepBytes sz v) := by
  simp [decodeMmio]

theorem decodeMmio_writeStart (sz : BitVec 3) (v : Long) :
    decodeMmio (mmioHeader true sz 0x04C#12) v =
      if keepBytes sz v = 0x1#64 then .crbWrStartInvoke sz else .crbWrStartOther sz (keepBytes sz v) := by
  simp [decodeMmio]

theorem decodeMmio_writeLocCtrl (sz : BitVec 3) (v : Long) :
    decodeMmio (mmioHeader true sz 0x008#12) v =
      if keepBytes sz v = 0x1#64 then .crbWrLocRequestAccess sz
      else if keepBytes sz v = 0x2#64 then .crbWrLocRelinquish sz
      else if keepBytes sz v = 0x8#64 then .crbWrLocResetEstablishment sz
      else .crbWrLocCtrlOther sz (keepBytes sz v) := by
  simp [decodeMmio]

theorem decodeMmio_writeIgnored {off : BitVec 8} (h : off ∉ commandOffsets) (sz : BitVec 3) (v : Long) :
    decodeMmio (mmioHeader true sz (regOffset off)) v = .crbWrIgnored sz off (keepBytes sz v) := by
  simp [decodeMmio, noCommand_regOffset h]

theorem decodeMmio_writeData {off : BitVec 12} (h : 0x100 ≤ off.toNat) (sz : BitVec 3) (v : Long) :
    decodeMmio (mmioHeader true sz off) v = .crbWrData sz off (keepBytes sz v) := by
  simp [decodeMmio, noCommand_of_data h, and_window_ne_zero h]

/-! ## CRQ messages and events -/

theorem be16_toBe16 (v : Half) : be16 (v.extractLsb' 8 8) (v.extractLsb' 0 8) = v :=
  BitVec.extractLsb'_append_extractLsb'

theorem be32_toBe32 (v : Word) :
    be32 (v.extractLsb' 24 8) (v.extractLsb' 16 8) (v.extractLsb' 8 8) (v.extractLsb' 0 8) = v := by
  rw [be32, BitVec.extractLsb'_append_extractLsb'_eq_extractLsb' (by rfl),
    BitVec.extractLsb'_append_extractLsb'_eq_extractLsb' (by rfl)]
  exact BitVec.extractLsb'_append_extractLsb' (w := 24)

/-- A message is read back from its 16 bytes (R91, R103). -/
theorem crqOfBytes_crqBytes (m : CrqMsg) : crqOfBytes (crqBytes m) = some m := by
  have hrsv : m.rsv.extractLsb' 32 32 ++ m.rsv.extractLsb' 0 32 = m.rsv := BitVec.extractLsb'_append_extractLsb'
  simp only [crqBytes, toBe16, toBe32, toBe64, List.cons_append, List.nil_append, crqOfBytes, be64, be16_toBe16,
    be32_toBe32, hrsv]

/-- Settles O3. -/
theorem crqFramingRoundTrip : Obligations.CrqFramingRoundTrip :=
  fun v msg len data rsv => crqOfBytes_crqBytes ⟨v, msg, len, data, rsv⟩

theorem decode_crqPacket (valid msg : Byte) (len : Half) (data : Word) (rsv : Long) :
    decode (crqPacket valid msg len data rsv) = .ok (decodeCrq ⟨valid, msg, len, data, rsv⟩) := by
  rw [crqPacket, decode, crqOfBytes_crqBytes]

theorem decodeCrq_init (msg : Byte) (len : Half) (data : Word) (rsv : Long) :
    decodeCrq ⟨0xC0#8, msg, len, data, rsv⟩ =
      if msg = 0x01#8 then .crqInitResult len data rsv
      else if msg = 0x02#8 then .crqInitCompleteResult len data rsv
      else .crqInitOther msg len data rsv := rfl

theorem decodeCrq_command (msg : Byte) (len : Half) (data : Word) (rsv : Long) :
    decodeCrq ⟨0x80#8, msg, len, data, rsv⟩ =
      if msg = 0x02#8 then .crqTpmCommand len data rsv
      else if msg = 0x01#8 then .crqGetVersion len data rsv
      else if msg = 0x03#8 then .crqGetRtceBufferSize len data rsv
      else if msg = 0x04#8 then .crqPrepareToSuspend len data rsv
      else .crqCmdOther msg len data rsv := rfl

theorem decodeCrq_tagOther {valid : Byte} (hinit : valid ≠ 0xC0#8) (hcmd : valid ≠ 0x80#8) (msg : Byte) (len : Half)
    (data : Word) (rsv : Long) :
    decodeCrq ⟨valid, msg, len, data, rsv⟩ = .crqTagOther valid msg len data rsv := by
  simp [decodeCrq, hinit, hcmd]

theorem decodeEvt_undefined {e : Byte} (h : e ∉ eventCodes) (ops : EvtOperands) :
    decodeEvt e ops = .evtUndefined e := by
  simp [eventCodes] at h
  simp [decodeEvt, h]

/-- Settles O1: by the kinds of packet, and for the rows of "other" values by what well-formedness leaves out. -/
theorem decodeEncodeRoundTrip : Obligations.DecodeEncodeRoundTrip := by
  intro i h
  cases i
  case crbRdReg sz off => exact congrArg _ (decodeMmio_readRegister sz off 0)
  case crbRdData sz off => exact congrArg _ (decodeMmio_readData (by simpa [Instr.wf] using h) sz 0)
  case crbWrCmdReady sz | crbWrGoIdle sz => simp [encode, decode, decodeMmio_writeCtrlReq, keepBytes_named]
  case crbWrCancelInvoke sz => simp [encode, decode, decodeMmio_writeCancel, keepBytes_named]
  case crbWrStartInvoke sz => simp [encode, decode, decodeMmio_writeStart, keepBytes_named]
  case crbWrLocRequestAccess sz | crbWrLocRelinquish sz | crbWrLocResetEstablishment sz =>
    simp [encode, decode, decodeMmio_writeLocCtrl, keepBytes_named]
  case crbWrCtrlReqOther sz v =>
    have ⟨hv, h1, h2⟩ : dataFits sz v = true ∧ v ≠ 0x1#64 ∧ v ≠ 0x2#64 := by simpa [Instr.wf, and_assoc] using h
    simp [encode, decode, decodeMmio_writeCtrlReq, keepBytes_of_dataFits hv, h1, h2]
  case crbWrCancelOther sz v =>
    have ⟨hv, h1⟩ : dataFits sz v = true ∧ v ≠ 0x1#64 := by simpa [Instr.wf] using h
    simp [encode, decode, decodeMmio_writeCancel, keepBytes_of_dataFits hv, h1]
  case crbWrStartOther sz v =>
    have ⟨hv, h1⟩ : dataFits sz v = true ∧ v ≠ 0x1#64 := by simpa [Instr.wf] using h
    simp [encode, decode, decodeMmio_writeStart, keepBytes_of_dataFits hv, h1]
  case crbWrLocCtrlOther sz v =>
    have ⟨hv, h1, h2, h8⟩ : dataFits sz v = true ∧ v ≠ 0x1#64 ∧ v ≠ 0x2#64 ∧ v ≠ 0x8#64 := by
      simpa [Instr.wf, and_assoc] using h
    simp [encode, decode, decodeMmio_writeLocCtrl, keepBytes_of_dataFits hv, h1, h2, h8]
  case crbWrIgnored sz off v =>
    have ⟨hv, hoff⟩ : dataFits sz v = true ∧ off ∉ commandOffsets := by simpa [Instr.wf] using h
    simp [encode, decode, decodeMmio_writeIgnored hoff, keepBytes_of_dataFits hv]
  case crbWrData sz off v =>
    have ⟨hv, hoff⟩ : dataFits sz v = true ∧ 0x100 ≤ off.toNat := by simpa [Instr.wf] using h
    simp [encode, decode, decodeMmio_writeData hoff, keepBytes_of_dataFits hv]
  case crqInitResult | crqInitCompleteResult | crqTpmCommand | crqGetVersion | crqGetRtceBufferSize
      | crqPrepareToSuspend => exact decode_crqPacket ..
  case crqInitOther msg len data rsv =>
    have ⟨h1, h2⟩ : msg ≠ 0x01#8 ∧ msg ≠ 0x02#8 := by simpa [Instr.wf] using h
    simp [encode, decode_crqPacket, decodeCrq_init, h1, h2]
  case crqCmdOther msg len data rsv =>
    have ⟨h1, h2, h3, h4⟩ : msg ≠ 0x01#8 ∧ msg ≠ 0x02#8 ∧ msg ≠ 0x03#8 ∧ msg ≠ 0x04#8 := by
      simpa [Instr.wf, and_assoc] using h
    simp [encode, decode_crqPacket, decodeCrq_command, h1, h2, h3, h4]
  case crqTagOther valid msg len data rsv =>
    have ⟨hinit, hcmd⟩ : valid ≠ 0xC0#8 ∧ valid ≠ 0x80#8 := by simpa [Instr.wf] using h
    simp [encode, decode_crqPacket, decodeCrq_tagOther hinit hcmd]
  case evtUndefined code =>
    exact congrArg _ (decodeEvt_undefined (by simpa [Instr.wf] using h) blankOperands)
  -- the events of R93
  all_goals rfl

end Sys2Proof.Machine
end

section
/-! PROOFS. The opcode table: the decoder takes the first row in decreasing priority (O2), and what it makes of packets
outside the tables (O4, O39) and of written-out words (O5). -/

namespace Sys2Proof.Machine

/-! ## The rows in decreasing priority -/

/-- `a` is tried no later than `b` (R99). -/
abbrev Outranks (a b : Row) : Prop := b.priority ≤ a.priority

/-- The rows in decreasing priority, those of one priority in the table's order (R99). -/
def ranked (rs : List Row) : List Row := rs.insertionSort Outranks

theorem ranked_cons (r : Row) (rs : List Row) : ranked (r :: rs) = (ranked rs).orderedInsert Outranks r := rfl

theorem ranked_pairwise (rs : List Row) : (ranked rs).Pairwise Outranks :=
  haveI : Std.Total Outranks := ⟨fun a b => Nat.le_total b.priority a.priority⟩
  haveI : IsTrans Row Outranks := ⟨fun _ _ _ hab hbc => Nat.le_trans hbc hab⟩
  List.pairwise_insertionSort Outranks rs

theorem topRow_eq_head? (rs : List Row) : topRow rs = (ranked rs).head? := by
  induction rs with
  | nil => rfl
  | cons r rs ih =>
    rw [topRow, ih, ranked_cons]
    cases ranked rs with
    | nil => rfl
    | cons q qs =>
      simp only [List.head?_cons, List.orderedInsert_cons]
      split <;> rfl

theorem orderedInsert_eq_cons {r : Row} {rs : List Row} (h : ∀ q ∈ rs, Outranks r q) :
    rs.orderedInsert Outranks r = r :: rs := by
  cases rs with
  | nil => rfl
  | cons q qs => exact List.orderedInsert_cons_of_le _ _ (h q List.mem_cons_self)

theorem filter_orderedInsert (f : Row → Bool) (r : Row) {rs : List Row} (h : rs.Pairwise Outranks) :
    (rs.orderedInsert Outranks r).filter f =
      if f r then (rs.filter f).orderedInsert Outranks r else rs.filter f := by
  induction rs with
  | nil => rw [List.orderedInsert_nil, List.filter_cons]; rfl
  | cons q qs ih =>
    obtain ⟨hq, hqs⟩ := List.pairwise_cons.1 h
    by_cases hle : Outranks r q
    · have hall : ∀ x ∈ (q :: qs).filter f, Outranks r x := by
        intro x hx
        rcases List.mem_cons.1 (List.mem_of_mem_filter hx) with rfl | hx
        · exact hle
        · exact Nat.le_trans (hq x hx) hle
      rw [List.orderedInsert_cons_of_le _ _ hle, List.filter_cons, orderedInsert_eq_cons hall]
    · rw [List.orderedInsert_of_not_le _ _ hle, List.filter_cons, List.filter_cons, ih hqs]
      cases f q <;> cases f r <;> simp [hle]

theorem filter_ranked (f : Row → Bool) (rs : List Row) : (ranked rs).filter f = ranked (rs.filter f) := by
  induction rs with
  | nil => rfl
  | cons r rs ih =>
    rw [ranked_cons, filter_orderedInsert f r (ranked_pairwise rs), ih, List.filter_cons]
    split <;> rfl

/-- The row of a packet is the first that fits when the rows are tried in decreasing priority (R99). -/
theorem rowOf_eq_find? (p : Packet) : rowOf p = ((ranked tableRows).find? (·.hits p)).map Row.mnemonic := by
  rw [rowOf, topRow_eq_head?, ← filter_ranked, List.head?_filter]

theorem map_find?_cons (f : Row → Bool) (r : Row) (rs : List Row) :
    ((r :: rs).find? f).map Row.mnemonic = if f r then some r.mnemonic else (rs.find? f).map Row.mnemonic := by
  rw [List.find?_cons]
  cases f r <;> rfl

/-! ## When a row fits -/

theorem toNat_and_beq {w m p : Nat} (x : BitVec w) (hm : m < 2 ^ w) (hp : p < 2 ^ w) :
    (x.toNat &&& m == p) = maskMatch x (.ofNat w m) (.ofNat w p) := by
  rw [maskMatch, Bool.eq_iff_iff, beq_iff_eq, beq_iff_eq, BitVec.toNat_eq, BitVec.toNat_and, BitVec.toNat_ofNat,
    BitVec.toNat_ofNat, Nat.mod_eq_of_lt hm, Nat.mod_eq_of_lt hp]

theorem hits_mmio (r : Row) (w : Bool) (sz : BitVec 3) (off : BitVec 12) (v : Long) :
    r.hits (.mmio (mmioHeader w sz off) v) =
      (r.port == .mmio && (mmioHeader w sz off).toNat &&& r.mask == r.pat && r.data.all (keepBytes sz v == ·)) := by
  simp only [Row.hits, mmioHeader_size]
  cases r.data <;> rfl

theorem hits_crq {bytes : List Byte} {m : CrqMsg} (hm : crqOfBytes bytes = some m) (r : Row) :
    r.hits (.crq bytes) = (r.port == .crq && (m.valid ++ m.msg : BitVec 16).toNat &&& r.mask == r.pat) := by
  rw [Row.hits, hm]

theorem append_eq_iff {valid msg : Byte} {k : BitVec 16} :
    valid ++ msg = k ↔ valid = k.extractLsb' 8 8 ∧ msg = k.extractLsb' 0 8 := by
  constructor
  · rintro rfl
    exact ⟨BitVec.extractLsb'_append_eq_left.symm, BitVec.extractLsb'_append_eq_right.symm⟩
  · rintro ⟨rfl, rfl⟩
    exact BitVec.extractLsb'_append_extractLsb'

/-! The CRQ rows look at both key bytes, at the tag alone, or at neither (R96); the event rows at the whole code. -/

@[simp] theorem maskMatch_key (x p : BitVec 16) : maskMatch x 0xFFFF#16 p = (x == p) :=
  congrArg (· == p) (BitVec.and_allOnes (x := x))

@[simp] theorem maskMatch_tag (valid msg : Byte) (p : BitVec 16) :
    maskMatch (valid ++ msg) 0xFF00#16 p = (valid ++ 0#8 == p) := by
  rw [maskMatch, show 0xFF00#16 = BitVec.allOnes 8 ++ 0#8 from rfl, BitVec.and_append, BitVec.and_allOnes,
    BitVec.and_zero]

@[simp] theorem maskMatch_code (e p : Byte) : maskMatch e 0xFF#8 p = (e == p) :=
  congrArg (· == p) (BitVec.and_allOnes (x := e))

@[simp] theorem maskMatch_zero {w : Nat} (x p : BitVec w) : maskMatch x 0#w p = (0#w == p) :=
  congrArg (· == p) BitVec.and_zero

/-! ## The decoder follows the table, port by port -/

theorem some_mnemonic_ite {c : Prop} [Decidable c] (i j : Instr) :
    some (if c then i else j).mnemonic = if c then some i.mnemonic else some j.mnemonic := by
  split <;> rfl

/-- The MMIO rows as they are tried (R95, R99). -/
theorem rowOf_header (w : Bool) (sz : BitVec 3) (off : BitVec 12) (v : Long) :
    rowOf (.mmio (mmioHeader w sz off) v) =
      if w = false ∧ off &&& 0xF00#12 = 0#12 then some "CRB_RD_REG"
      else if (w = true ∧ off = 0x040#12) ∧ keepBytes sz v = 0x1#64 then some "CRB_WR_CMD_READY"
      else if (w = true ∧ off = 0x040#12) ∧ keepBytes sz v = 0x2#64 then some "CRB_WR_GO_IDLE"
      else if (w = true ∧ off = 0x048#12) ∧ keepBytes sz v = 0x1#64 then some "CRB_WR_CANCEL_INVOKE"
      else if (w = true ∧ off = 0x04C#12) ∧ keepBytes sz v = 0x1#64 then some "CRB_WR_START_INVOKE"
      else if (w = true ∧ off = 0x008#12) ∧ keepBytes sz v = 0x1#64 then some "CRB_WR_LOC_REQUEST_ACCESS"
      else if (w = true ∧ off = 0x008#12) ∧ keepBytes sz v = 0x2#64 then some "CRB_WR_LOC_RELINQUISH"
      else if (w = true ∧ off = 0x008#12) ∧ keepBytes sz v = 0x8#64 then some "CRB_WR_LOC_RESET_ESTABLISHMENT"
      else if w = true ∧ off = 0x040#12 then some "CRB_WR_CTRL_REQ_OTHER"
      else if w = true ∧ off = 0x048#12 then some "CRB_WR_CANCEL_OTHER"
      else if w = true ∧ off = 0x04C#12 then some "CRB_WR_START_OTHER"
      else if w = true ∧ off = 0x008#12 then some "CRB_WR_LOC_CTRL_OTHER"
      else if w = true ∧ off &&& 0xF00#12 = 0#12 then some "CRB_WR_IGNORED"
      else if w = false then some "CRB_RD_DATA" else some "CRB_WR_DATA" := by
  rw [rowOf_eq_find?]
  cases w
  · simp [ranked, tableRows, mmioRows, crqRows, evtRows, map_find?_cons, hits_mmio, toNat_and_beq]
  · simp [ranked, tableRows, mmioRows, crqRows, evtRows, map_find?_cons, hits_mmio, toNat_and_beq]

theorem rowOf_mmio (h : BitVec 16) (v : Long) : rowOf (.mmio h v) = some (decodeMmio h v).mnemonic := by
  rw [← mmioHeader_fields h, rowOf_header]
  generalize h.getLsbD 15 = w, h.extractLsb' 12 3 = sz, h.extractLsb' 0 12 = off
  cases w
  · rcases offset_cases off with ⟨o, rfl⟩ | ho
    · simp [decodeMmio_readRegister, Instr.mnemonic]
    · simp [decodeMmio_readData ho, and_window_ne_zero ho, Instr.mnemonic]
  · rcases offset_cases off with ⟨o, rfl⟩ | ho
    · by_cases hc : o ∈ commandOffsets
      · simp only [commandOffsets, List.mem_cons, List.not_mem_nil, or_false] at hc
        rcases hc with rfl | rfl | rfl | rfl
        · rw [show regOffset 0x08 = 0x008#12 from rfl, decodeMmio_writeLocCtrl]
          simp [↓some_mnemonic_ite, Instr.mnemonic]
        · rw [show regOffset 0x40 = 0x040#12 from rfl, decodeMmio_writeCtrlReq]
          simp [↓some_mnemonic_ite, Instr.mnemonic]
        · rw [show regOffset 0x48 = 0x048#12 from rfl, decodeMmio_writeCancel]
          simp [↓some_mnemonic_ite, Instr.mnemonic]
        · rw [show regOffset 0x4C = 0x04C#12 from rfl, decodeMmio_writeStart]
          simp [↓some_mnemonic_ite, Instr.mnemonic]
      · simp [decodeMmio_writeIgnored hc, noCommand_regOffset hc, Instr.mnemonic]
    · simp [decodeMmio_writeData ho, noCommand_of_data ho, and_window_ne_zero ho, Instr.mnemonic]

theorem rowOf_crq {bytes : List Byte} {m : CrqMsg} (hm : crqOfBytes bytes = some m) :
    rowOf (.crq bytes) = some (decodeCrq m).mnemonic := by
  rw [rowOf_eq_find?]
  obtain ⟨valid, msg, len, data, rsv⟩ := m
  by_cases hinit : valid = 0xC0#8
  · subst hinit
    rw [decodeCrq_init]
    simp [ranked, tableRows, mmioRows, crqRows, evtRows, map_find?_cons, hits_crq hm, toNat_and_beq, append_eq_iff,
      ↓some_mnemonic_ite, Instr.mnemonic]
  · by_cases hcmd : valid = 0x80#8
    · subst hcmd
      rw [decodeCrq_command]
      simp [ranked, tableRows, mmioRows, crqRows, evtRows, map_find?_cons, hits_crq hm, toNat_and_beq, append_eq_iff,
        ↓some_mnemonic_ite, Instr.mnemonic]
    · rw [decodeCrq_tagOther hinit hcmd]
      simp [ranked, tableRows, mmioRows, crqRows, evtRows, hits_crq hm, toNat_and_beq, append_eq_iff, hinit, hcmd,
        Instr.mnemonic]

theorem rowOf_evt (e : Byte) (ops : EvtOperands) : rowOf (.evt e ops) = some (decodeEvt e ops).mnemonic := by
  rw [rowOf_eq_find?, decodeEvt]
  simp [ranked, tableRows, mmioRows, crqRows, evtRows, map_find?_cons, Row.hits, toNat_and_beq,
    ↓some_mnemonic_ite, Instr.mnemonic]

/-! ## Messages by their length -/

theorem crqOfBytes_of_length {bytes : List Byte} (h : bytes.length = 16) : ∃ m, crqOfBytes bytes = some m :=
  match bytes, h with
  | [_, _, _, _, _, _, _, _, _, _, _, _, _, _, _, _], _ => ⟨_, rfl⟩

theorem crqOfBytes_of_length_ne {bytes : List Byte} (h : bytes.length ≠ 16) : crqOfBytes bytes = none := by
  unfold crqOfBytes
  split
  · exact absurd rfl h
  · rfl

/-- A message that decodes is one of 16 bytes. -/
theorem decode_crq_ok {bytes : List Byte} {i : Instr} (h : decode (.crq bytes) = .ok i) :
    ∃ m, crqOfBytes bytes = some m ∧ i = decodeCrq m := by
  cases hm : crqOfBytes bytes with
  | none => simp [decode, hm] at h
  | some m => exact ⟨m, rfl, by simpa [decode, hm, eq_comm] using h⟩

/-- Settles O2. -/
theorem decodeFollowsOpcodeTable : Obligations.DecodeFollowsOpcodeTable := by
  refine ⟨fun h v => ⟨_, rfl⟩, fun bytes hlen => ?_, fun e ops => ⟨_, rfl⟩, ?_, ?_, ?_⟩
  · obtain ⟨m, hm⟩ := crqOfBytes_of_length hlen
    exact ⟨decodeCrq m, by rw [decode, hm]⟩
  · rintro h v i - ⟨⟩
    exact rowOf_mmio h v
  · intro bytes i hi
    obtain ⟨m, hm, rfl⟩ := decode_crq_ok hi
    exact rowOf_crq hm
  · rintro e ops i ⟨⟩
    exact rowOf_evt e ops

/-! ## Packets outside the tables, and words written out -/

/-- Settles O4. -/
theorem crqMessageOfOtherLengthIsRefused : Obligations.CrqMessageOfOtherLengthIsRefused := by
  intro bytes s hlen
  have hdec : decode (.crq bytes) = .error (.crqLength bytes.length) := by
    rw [decode, crqOfBytes_of_length_ne hlen]
  exact ⟨hdec, by rw [runPacket, hdec]⟩

/-- Settles O39. -/
theorem undefinedEventIsRefused : Obligations.UndefinedEventIsRefused :=
  fun _ ops _ he => ⟨congrArg _ (decodeEvt_undefined he ops), rfl⟩

/-- Settles O5: the decoder runs on each word. -/
theorem writtenOutWordsDecode : Obligations.WrittenOutWordsDecode :=
  ⟨rfl, rfl, rfl, rfl, rfl, rfl⟩

end Sys2Proof.Machine
end

section
/-! PROOFS. At most one request is in flight (O51): how a delivery and a completion count, and what each operation does
to the count and to the in-flight marker. -/

namespace Sys2Proof.Machine

/-! ## Counting requests -/

/-- A completion has a request to take exactly where the count is not 0. -/
theorem countRequests_pos {b : Backend} {fe : FrontEnd} : 0 < countRequests fe b.outstanding ↔ b.holds fe = true := by
  rw [holds_iff, countRequests, List.length_pos_iff_exists_mem]
  simp

/-- A delivery is one request more (R221). -/
theorem countRequests_append (fe : FrontEnd) (qs : List Request) (inLen outLen : Nat) :
    countRequests fe (qs ++ [⟨fe, inLen, outLen⟩]) = countRequests fe qs + 1 := by
  simp [countRequests]

/-- A completion is one request less (R222). -/
theorem countRequests_of_taken {fe : FrontEnd} {before after : List Request} (h : RequestTaken fe before after) :
    countRequests fe before = countRequests fe after + 1 := by
  obtain ⟨xs, q, ys, rfl, hq, rfl⟩ := h
  simp [countRequests, hq]
  omega

theorem RequestTaken.cons {fe : FrontEnd} {before after : List Request} (h : RequestTaken fe before after)
    (p : Request) : RequestTaken fe (p :: before) (p :: after) := by
  obtain ⟨xs, q, ys, rfl, hq, rfl⟩ := h
  exact ⟨p :: xs, q, ys, rfl, hq, rfl⟩

/-- With more than `k` requests of `fe` in the list, the `k`-th of them is taken off it. -/
theorem removeRequest_taken (fe : FrontEnd) (qs : List Request) (k : Nat) (hk : k < countRequests fe qs) :
    RequestTaken fe qs (removeRequest fe k qs) := by
  induction qs generalizing k with
  | nil => simp [countRequests] at hk
  | cons q qs ih =>
    by_cases hq : q.frontEnd = fe
    · cases k with
      | zero => exact ⟨[], q, qs, rfl, hq, by simp [removeRequest, hq]⟩
      | succ k =>
        have hrest : k < countRequests fe qs := by simpa [countRequests, hq] using hk
        simpa [removeRequest, hq] using (ih k hrest).cons q
    · have hrest : k < countRequests fe qs := by simpa [countRequests, hq] using hk
      simpa [removeRequest, hq] using (ih k hrest).cons q

/-- A completion takes one request of its front end, whichever the draw chooses (R222; log 15). -/
theorem retire_taken {b : Backend} {fe : FrontEnd} (h : b.holds fe = true) (d : Nat) :
    RequestTaken fe b.outstanding (b.retire fe d).outstanding := by
  have hpos := countRequests_pos.2 h
  refine removeRequest_taken fe b.outstanding _ ?_
  split
  · exact hpos
  · exact Nat.mod_lt _ hpos

theorem completionEnabled_iff {fe : FrontEnd} {s : State} :
    completionEnabled fe s = true ↔ s.frontEnd = some fe ∧ ∃ q ∈ s.backend.outstanding, q.frontEnd = fe := by
  rw [completionEnabled, Bool.and_eq_true, beq_iff_eq, holds_iff]

/-- An enabled completion is one request less of the device's front end. -/
theorem countRequests_retire {fe : FrontEnd} {s : State} (h : completionEnabled fe s = true) (d : Nat) :
    countRequests fe s.backend.outstanding = countRequests fe (s.backend.retire fe d).outstanding + 1 :=
  countRequests_of_taken (retire_taken (holds_iff.2 (completionEnabled_iff.1 h).2) d)

/-! ## The marker of each front end -/

theorem singleRequest_crb {s : State} (hf : s.frontEnd = some .crb) :
    s.SingleRequest ↔ countRequests .crb s.backend.outstanding = if s.crb.regs.start then 1 else 0 := by
  simp [State.SingleRequest, hf]

theorem singleRequest_crq {s : State} (hf : s.frontEnd = some .crq) :
    s.SingleRequest ↔ countRequests .crq s.backend.outstanding = if s.crq.vstate = .executing then 1 else 0 := by
  simp [State.SingleRequest, hf]

/-! ## What the operations do to the requests -/

@[simp] theorem startCommand_frontEnd (s : State) : s.startCommand.frontEnd = s.frontEnd := rfl
@[simp] theorem completeCrb_frontEnd (s : State) (r : Word) (out : List Byte) :
    (s.completeCrb r out).frontEnd = s.frontEnd := rfl
@[simp] theorem completeCrb_backend (s : State) (r : Word) (out : List Byte) :
    (s.completeCrb r out).backend = s.backend.retire .crb s.draws := rfl
@[simp] theorem finishCrq_frontEnd (s : State) (out : List Byte) : (s.finishCrq out).frontEnd = s.frontEnd := rfl
@[simp] theorem finishCrq_backend (s : State) (out : List Byte) :
    (s.finishCrq out).backend = s.backend.retire .crq s.draws := rfl

@[simp] theorem deferOrDeliver_frontEnd (s : State) : s.deferOrDeliver.frontEnd = s.frontEnd := by
  unfold State.deferOrDeliver
  split <;> rfl

@[simp] theorem deferOrDeliver_backend (s : State) : s.deferOrDeliver.backend = s.backend := by
  unfold State.deferOrDeliver
  split <;> rfl

@[simp] theorem constructed_frontEnd (s : State) (fe : FrontEnd) : (s.constructed fe).frontEnd = some fe := by
  cases fe <;> rfl

@[simp] theorem constructed_backend (s : State) (fe : FrontEnd) : (s.constructed fe).backend = s.backend := by
  cases fe <;> rfl

@[simp] theorem replay_backend (s : State) : s.replay.backend = s.backend := by
  unfold State.replay
  split <;> rfl

@[simp] theorem acceptCommand_frontEnd (s : State) (m : CrqMsg) : (s.acceptCommand m).frontEnd = s.frontEnd := by
  unfold State.acceptCommand State.acceptCommandWith
  split <;> rfl

/-- An accepted command delivers one request (R165). -/
theorem acceptCommand_outstanding (s : State) (m : CrqMsg) : ∃ inLen,
    (s.acceptCommand m).backend.outstanding = s.backend.outstanding ++ [⟨.crq, inLen, s.crq.nq⟩] := by
  refine ⟨min (hdrSize (s.dmaBytes (Config.freeBool s.draws) m.data s.crq.nq)) s.crq.nq, ?_⟩
  unfold State.acceptCommand State.acceptCommandWith
  split <;> rfl

namespace State.SingleRequest

variable {s : State}

/-- Only the device's front end, OUTSTANDING and the two markers matter. -/
theorem frame (h : s.SingleRequest) {t : State} (hf : t.frontEnd = s.frontEnd)
    (ho : t.backend.outstanding = s.backend.outstanding) (hstart : t.crb.regs.start = s.crb.regs.start)
    (hv : t.crq.vstate = s.crq.vstate) : t.SingleRequest := by
  simpa only [State.SingleRequest, hf, ho, hstart, hv] using h

/-- A command starts where none was in flight (R127). -/
theorem startCommand (h : s.SingleRequest) (hf : s.frontEnd = some .crb) (hs : s.crb.regs.start = false) :
    s.startCommand.SingleRequest := by
  have hcount : countRequests .crb s.backend.outstanding = 0 := by simpa [hs] using (singleRequest_crb hf).1 h
  refine (singleRequest_crb ((startCommand_frontEnd s).trans hf)).2 ?_
  rw [startCommand_regs, putStart_start, if_pos rfl]
  exact (countRequests_append _ _ _ _).trans (congrArg (· + 1) hcount)

/-- A command message is accepted where none was in flight (R165). -/
theorem acceptCommand (h : s.SingleRequest) (hf : s.frontEnd = some .crq) (hv : s.crq.vstate ≠ .executing)
    (m : CrqMsg) : (s.acceptCommand m).SingleRequest := by
  have hcount : countRequests .crq s.backend.outstanding = 0 := by simpa [hv] using (singleRequest_crq hf).1 h
  obtain ⟨inLen, hout⟩ := acceptCommand_outstanding s m
  refine (singleRequest_crq ((acceptCommand_frontEnd s m).trans hf)).2 ?_
  rw [hout, countRequests_append, hcount, acceptCommand_crq, if_pos rfl]

/-- The completion takes the one request there is and clears the start bit (R138). -/
theorem completeCrb (h : s.SingleRequest) (hc : completionEnabled .crb s = true) (r : Word) (out : List Byte) :
    (s.completeCrb r out).SingleRequest := by
  have hf := (completionEnabled_iff.1 hc).1
  have hcount := (singleRequest_crb hf).1 h
  have htaken := countRequests_retire hc s.draws
  refine (singleRequest_crb ((completeCrb_frontEnd s r out).trans hf)).2 ?_
  rw [completeCrb_backend, completeCrb_regs, noteResult_start, putStart_start, if_neg nofun]
  split at hcount <;> omega

/-- The completion takes the one request there is and leaves Executing (R172). -/
theorem completeCrq (h : s.SingleRequest) (hc : completionEnabled .crq s = true) (out : List Byte) :
    (s.finishCrq out).deferOrDeliver.SingleRequest := by
  have hf := (completionEnabled_iff.1 hc).1
  have hcount := (singleRequest_crq hf).1 h
  have htaken := countRequests_retire hc s.draws
  have hft : (s.finishCrq out).deferOrDeliver.frontEnd = some .crq := by simpa using hf
  refine (singleRequest_crq hft).2 ?_
  rw [deferOrDeliver_backend, finishCrq_backend, deferOrDeliver_crq, finishCrq_crq, if_neg nofun]
  split at hcount <;> omega

/-- A reset that interrupts no request (R273). -/
theorem resetCrb (h : s.SingleRequest) (hs : s.crb.regs.start = false) : s.resetCrb.SingleRequest :=
  h.frame rfl rfl (start_atReset.trans hs.symm) rfl

/-- A CRQ device that was not executing may be given another VSTATE but Executing. -/
theorem notExecuting (h : s.SingleRequest) (hf : s.frontEnd = some .crq) (hv : s.crq.vstate ≠ .executing) {t : State}
    (hft : t.frontEnd = s.frontEnd) (ho : t.backend.outstanding = s.backend.outstanding)
    (hvt : t.crq.vstate ≠ .executing) : t.SingleRequest := by
  have hcount := (singleRequest_crq hf).1 h
  rw [singleRequest_crq (hft.trans hf), ho, hcount, if_neg hv, if_neg hvt]

end State.SingleRequest

/-- A device is realised idle, where nothing is outstanding (R270). -/
theorem constructed_singleRequest {s : State} (hs : s.Inv) (h0 : s.host.registry = 0) (fe : FrontEnd) :
    (s.constructed fe).SingleRequest := by
  have hnil : s.backend.outstanding = [] := hs.outstanding_nil (hs.frontEnd_of_registry h0)
  cases fe with
  | crb => simp [singleRequest_crb, hnil, Crb.atConstruct, start_zero, countRequests]
  | crq => simp [singleRequest_crq, hnil, Crq.atConstruct, countRequests]

/-- Settles O51: a start, an accepted command and a completion change the count and the marker together; every other
operation leaves both, or finds and leaves the device idle. -/
theorem atMostOneRequestInFlight : Obligations.AtMostOneRequestInFlight := by
  intro i s t hs h hcrb hcrq hrestore he
  cases i
  case crbWrStartInvoke sz =>
    obtain ⟨hg, rfl⟩ := crbRegWrite_next.1 he
    split
    · exact h
    · split
      · exact h
      · rename_i hidle
        exact h.startCommand hg.1 (by simpa using hidle)
  case crqTpmCommand =>
    obtain ⟨hg, ⟨-, rfl⟩ | ⟨hidle, rfl⟩⟩ := execCrqTpmCommand_next.1 he
    · exact h
    · exact h.acceptCommand hg.1 hidle _
  case beCompleteCrb r out =>
    obtain ⟨hc, rfl⟩ := execBeCompleteCrb_next.1 he
    exact h.completeCrb hc r out
  case beCompleteCrq r out =>
    obtain ⟨hc, rfl⟩ := (execBeCompleteCrq_next r).1 he
    exact h.completeCrq hc out
  case resetCrb =>
    obtain ⟨-, rfl⟩ := execResetCrb_next.1 he
    exact h.resetCrb (hcrb rfl)
  case resetCrq =>
    obtain ⟨hf, rfl⟩ := execResetCrq_next.1 he
    exact h.notExecuting hf (hcrq rfl) rfl rfl nofun
  case restoreCrq rec =>
    obtain ⟨hf, -, rfl⟩ := execRestoreCrq_next he
    obtain ⟨hrec, hv⟩ := hrestore rec rfl
    exact h.notExecuting hf hv rfl rfl hrec
  case construct fe present =>
    obtain ⟨reason, rfl⟩ | ⟨h0, -, rfl⟩ := execConstruct_next he
    · exact h
    · exact constructed_singleRequest hs h0 fe
  case destroy =>
    obtain ⟨-, rfl⟩ := execDestroy_next he
    exact ⟨nofun, nofun⟩
  -- the other operations leave the device, OUTSTANDING and the markers
  all_goals
    obtain ⟨u, r, hu, rfl⟩ := exec_effect he
    cases hu <;> exact h.frame (by simp [replay_frontEnd]) (by simp) (by simp) (by simp)

end Sys2Proof.Machine
end

section
/-! PROOFS. The writes of the register window: the request and locality bits (O10, O14), the writes without effect (O11),
cancel (O12) and start (O13). -/

namespace Sys2Proof.Machine

/-- An admitted register write of at most 4 bytes has its effect and is acknowledged (R120). -/
theorem crbRegWrite_narrow {sz : BitVec 3} {off : Nat} {s : State} (hg : s.GuestReady .crb) (hn : accessBytes sz ≤ 4)
    (t : State) : crbRegWrite sz off s t = .next (t.answer .written) :=
  crbRegWrite_next.2 ⟨hg, by rw [if_neg (Nat.not_lt.2 hn)]⟩

/-- Settles O10. -/
theorem cmdReadyAndGoIdleWriteTpmIdle : Obligations.CmdReadyAndGoIdleWriteTpmIdle :=
  fun _ s hg hn =>
    ⟨⟨putBit s.crb.regs.ctrlSts 1 false, crbRegWrite_narrow hg hn _, fun k hk => putBit_getLsbD _ 1 k false hk⟩,
      ⟨putBit s.crb.regs.ctrlSts 1 true, crbRegWrite_narrow hg hn _, fun k hk => putBit_getLsbD _ 1 k true hk⟩⟩

/-- Settles O11: the effect of each of these writes is the state as it was. -/
theorem unrecognisedRegisterWritesChangeNothing : Obligations.UnrecognisedRegisterWritesChangeNothing := by
  intro sz off v s hg hn i hi
  simp only [List.mem_cons, List.not_mem_nil, or_false] at hi
  rcases hi with rfl | rfl | rfl | rfl | rfl | rfl | rfl <;> exact crbRegWrite_narrow hg hn s

/-- Settles O12. -/
theorem cancelInvokeForwardsOnlyWhileStarted : Obligations.CancelInvokeForwardsOnlyWhileStarted := by
  intro sz s hg hn
  refine (crbRegWrite_narrow hg hn (if s.crb.regs.start then s.cancel else s)).trans ?_
  unfold CrbRegs.start
  split <;> rfl

/-- Settles O13. -/
theorem startInvokeDeliversOnceWhileIdle : Obligations.StartInvokeDeliversOnceWhileIdle := by
  intro sz s hg hn n inLen
  have hexec := crbRegWrite_narrow (off := 0x04C) hg hn (if s.crb.regs.start then s else s.startCommand)
  refine ⟨fun hidle => ⟨putBit s.crb.regs.ctrlStart 0 true, hexec.trans ?_,
    fun k hk => putBit_getLsbD _ 0 k true hk⟩, fun hstarted => hexec.trans ?_⟩
  · have hs : s.crb.regs.start = false := hidle
    rw [hs]
    rfl
  · have hs : s.crb.regs.start = true := hstarted
    rw [if_pos hs]
    rfl

/-- Settles O14: each of the two words has two of its bits written. -/
theorem requestAccessGrantsLocality : Obligations.RequestAccessGrantsLocality := by
  intro sz s hg hn
  refine ⟨putBit (putBit s.crb.regs.locSts 0 true) 1 false, putBit (putBit s.crb.regs.locState 1 true) 7 true,
    crbRegWrite_narrow hg hn _, fun k hk => ?_, fun k hk => ?_⟩
  · rw [putBit_getLsbD _ _ _ _ hk, putBit_getLsbD _ _ _ _ hk]
    by_cases h1 : k = 1 <;> simp [h1]
  · rw [putBit_getLsbD _ _ _ _ hk, putBit_getLsbD _ _ _ _ hk]
    by_cases h7 : k = 7 <;> simp [h7]

end Sys2Proof.Machine
end

section
/-! PROOFS. The data window: the bytes a read gives (O15), and those a write stores (O16). -/

namespace Sys2Proof.Machine

/-- W in the words of the statements (R9). -/
theorem window_eq (c : Crb) : c.window = min c.nCrb 3840 := rfl

/-- Byte `k` of the value a data-window read gives: the byte read inside the access, else 0 (R67). -/
theorem byteOf_leValue_readFrom (c : Crb) (d a n k : Nat) (hk : k < 8) :
    byteOf (leValue (c.readFrom d a 0 n)) k = if k < n then c.readByte d a k else 0 := by
  rw [byteOf_leValue _ k hk]
  split
  case isTrue h => simp [readFrom_getElem? c d a 0 n k h]
  case isFalse h => simp [Nat.le_of_not_lt h]

/-- Settles O15. -/
theorem dataWindowReadGivesWindowBytesOrDraws : Obligations.DataWindowReadGivesWindowBytesOrDraws := by
  intro sz off s hg _ n a
  have hbyte : ∀ k, k < n → byteOf (leValue (s.crb.readFrom s.draws a 0 n)) k = s.crb.readByte s.draws a k := by
    intro k hk
    rw [byteOf_leValue_readFrom _ _ _ _ _ (hk.trans_le (accessBytes_le sz)), if_pos hk]
  refine ⟨_, s.draws + 1, exec_crbRdData hg, fun k hn hk => ?_, fun k hk hw hs => ?_, fun k hk hout => ?_⟩
  · exact (byteOf_leValue_readFrom _ _ _ _ _ hk).trans (if_neg (Nat.not_lt.2 hn))
  · exact (hbyte k hk).trans (if_pos ⟨hw, hs⟩)
  · refine (hbyte k hk).trans (if_neg fun ⟨hw, hs⟩ => ?_)
    rcases hout with hout | hout
    · exact absurd hw (Nat.not_lt.2 hout)
    · exact absurd (hout.symm.trans hs) nofun

/-- A data-window write changes the window alone. -/
theorem writeData_eq (c : Crb) (a n : Nat) (v : Long) :
    c.writeData a n v = { c with dw := (c.writeData a n v).dw } := rfl

/-- Settles O16: the start bit has no part in a write. -/
theorem dataWindowWriteStoresInsideWindow : Obligations.DataWindowWriteStoresInsideWindow := by
  intro sz off v s hg _ n a
  refine ⟨_, execCrbWrData_next.2 ⟨hg, congrArg (fun c => ({ s with crb := c }).answer .written)
    (writeData_eq s.crb (windowIndex off) n v).symm⟩, fun i => ?_⟩
  rw [← window_eq]
  exact writeData_read s.crb (windowIndex off) n i v

end Sys2Proof.Machine
end

section
/-! PROOFS. The completion of a CRB command (O18). -/

namespace Sys2Proof.Machine

/-- A completion writes one word at most, tpmSts on a nonzero result (R138). -/
theorem noteResult_eq (r : CrbRegs) (result : Word) :
    r.noteResult result = { r with ctrlSts := if result = 0 then r.ctrlSts else putBit r.ctrlSts 0 true } := by
  unfold CrbRegs.noteResult
  split <;> rfl

/-- A byte of a buffer filled with output bytes, as many as fit: the given one (R138; log 16). -/
theorem read_ofBytes_take {out : List Byte} {d n i : Nat} {b : Byte} (hi : i < n) (hb : out[i]? = some b) :
    (Memory.ofBytes d (out.take n)).read i = b := by
  rw [read_ofBytes, List.getElem?_take_of_lt hi, hb, Option.getD_some]

/-- Settles O18. -/
theorem completeCrbClearsStartAndRecordsError : Obligations.CompleteCrbClearsStartAndRecordsError := by
  refine fun r out s => ⟨fun h => ?_, fun h => if_neg (mt completionEnabled_iff.1 h)⟩
  refine ⟨Memory.ofBytes s.draws (out.take s.crb.nCrb),
    if r = 0 then s.crb.regs.ctrlSts else putBit s.crb.regs.ctrlSts 0 true, putBit s.crb.regs.ctrlStart 0 false,
    (s.backend.retire .crb s.draws).outstanding, s.draws + 1, ?_, retire_taken (holds_iff.2 h.2) s.draws,
    fun i hi b hb => read_ofBytes_take hi hb, fun k hk => putBit_getLsbD _ 0 k false hk, fun k hk => ?_⟩
  · refine execBeCompleteCrb_next.2 ⟨completionEnabled_iff.2 h, ?_⟩
    rw [State.completeCrb, noteResult_eq]
    rfl
  · split
    case isTrue hr => simp [hr]
    case isFalse hr => simpa only [and_iff_left hr] using putBit_getLsbD _ 0 k true hk

end Sys2Proof.Machine
end

section
/-! PROOFS. Which inputs are held (O55): by the port an input arrives on. -/

namespace Sys2Proof.Machine

/-- No MMIO transaction is held. -/
theorem enabled_decodeMmio (h : BitVec 16) (v : Long) (s : State) : enabled (decodeMmio h v) s = true := by
  simp only [decodeMmio]
  split_ifs <;> rfl

/-- No CRQ message is held. -/
theorem enabled_decodeCrq (m : CrqMsg) (s : State) : enabled (decodeCrq m) s = true := by
  unfold decodeCrq
  split_ifs <;> rfl

/-- Of the events the two completions and the snapshot can be held (R138, R172, R203). -/
theorem enabled_decodeEvt (e : Byte) (ops : EvtOperands) (s : State) :
    enabled (decodeEvt e ops) s =
      if e = 0x01 then completionEnabled .crb s
      else if e = 0x02 then completionEnabled .crq s
      else if e = 0x31 then s.frontEnd != some .crq || snapshotReady s
      else true := by
  by_cases h1 : e = 0x01
  · subst h1; rfl
  by_cases h2 : e = 0x02
  · subst h2; rfl
  by_cases h3 : e = 0x31
  · subst h3; rfl
  simp only [decodeEvt, h1, h2, h3, if_false]
  split_ifs <;> rfl

/-- A snapshot is held outside the snapshot phase and with a CRQ request outstanding (R203). -/
theorem snapshotReady_eq_false {s : State} : snapshotReady s = false ↔
    s.host.snapPhase = false ∨ ∃ q ∈ s.backend.outstanding, q.frontEnd = .crq := by
  rw [← holds_iff, snapshotReady]
  cases s.host.snapPhase <;> simp

/-- Settles O55: only the three events of `enabled_decodeEvt` can be held. -/
theorem inputsAreHeldOnlyAsTheRulesSay : Obligations.InputsAreHeldOnlyAsTheRulesSay := by
  intro x s
  cases x with
  | guestStore addr bytes => simp [inputReady]
  | packet p =>
    cases p with
    | mmio h v => simp [inputReady, decode, enabled_decodeMmio]
    | crq bytes => cases hm : crqOfBytes bytes <;> simp [inputReady, decode, hm, enabled_decodeCrq]
    | evt e ops =>
      have hready : inputReady s (.packet (.evt e ops)) = enabled (decodeEvt e ops) s := rfl
      rw [hready, enabled_decodeEvt, ← completionEnabled_iff, ← completionEnabled_iff]
      split_ifs with hcrb hcrq hsnap
      · simp [hcrb]
      · simp [hcrq]
      · simp [hsnap, snapshotReady_eq_false]
      · simp_all

end Sys2Proof.Machine
end

section
/-! PROOFS. The completion of a CRQ command: what one delivery writes and sends (O19), and the delivery decision of a
completion (O20). -/

namespace Sys2Proof.Machine

/-- The bytes of a message with len 0 (R91). -/
theorem crqBytes_len_zero (valid msg : Byte) (data : Word) (rsv : Long) :
    crqBytes ⟨valid, msg, 0, data, rsv⟩ = [valid, msg, 0x00, 0x00] ++ toBe32 data ++ toBe64 rsv := by
  have hlen : toBe16 0 = [0x00, 0x00] := by decide
  rw [crqBytes, hlen]
  rfl

/-- The 16 bytes of a vTPM-error (R97, R243). -/
theorem crqBytes_vtpmError (m : CrqMsg) (code : Word) :
    crqBytes (vtpmError m code) = [0x80, 0xFF, 0x00, 0x00] ++ toBe32 code ++ toBe64 m.rsv :=
  crqBytes_len_zero _ _ _ _

theorem toBe32_errCopyOutFailed : toBe32 errCopyOutFailed = [0x00, 0x00, 0x00, 0x04] := by decide

theorem toBe32_errCopyInFailed : toBe32 errCopyInFailed = [0x00, 0x00, 0x00, 0x03] := by decide

/-- The 16 bytes of a response, by the status of the DMA write before it (R97, R173, R243). -/
theorem crqBytes_response (c : Crq) (dmaOk : Bool) :
    crqBytes (c.response dmaOk) =
      if dmaOk then
        [0x80, 0x82] ++ toBe16 (BitVec.ofNat 16 c.responseLength) ++ toBe32 c.saved.data ++ toBe64 c.saved.rsv
      else [0x80, 0xFF, 0x00, 0x00, 0x00, 0x00, 0x00, 0x04] ++ toBe64 c.saved.rsv := by
  cases dmaOk with
  | true => rfl
  | false => exact (crqBytes_vtpmError c.saved errCopyOutFailed).trans (by rw [toBe32_errCopyOutFailed]; rfl)

/-- Byte `i` of a delivery is byte `i` of SCR (R173). -/
theorem response_getElem? {c : Crq} {i : Nat} (hi : i < c.responseLength) :
    (c.scr.readBytes 0 c.responseLength)[i]? = some (c.scr.read i) := by
  rw [readBytes_getElem? _ _ _ _ hi, Nat.zero_add]

/-- A delivery whose write succeeds leaves the bytes of SCR at the saved address (R173). -/
theorem deliverResponse_read_inside {s : State} (hok : Config.freeBool s.draws = true) {i : Nat}
    (hi : i < s.crq.responseLength) :
    s.deliverResponse.guestMem.read (s.crq.saved.data.toNat + i) = s.crq.scr.read i := by
  have hlen : i < (s.crq.scr.readBytes 0 s.crq.responseLength).length := by simpa using hi
  rw [deliverResponse_eq, hok]
  exact (read_write_inside _ _ i _ hlen).trans ((List.getElem_eq_iff hlen).2 (response_getElem? hi))

/-- Settles O19: `deliverResponse_eq` is the write and the send, and a write, failed or not, stays in its range. -/
theorem deliverResponseWritesOnceAndSendsOnce : Obligations.DeliverResponseWritesOnceAndSendsOnce := by
  intro s
  refine ⟨Config.freeBool s.draws, Config.freeBool (s.draws + 1), s.crq.scr.readBytes 0 s.crq.responseLength,
    crqBytes (s.crq.response (Config.freeBool s.draws)), ?_, readBytes_length _ _ _,
    fun i hi => response_getElem? hi, fun a hout => ?_, fun hok i hi => deliverResponse_read_inside hok hi,
    crqBytes_response _ _⟩
  · rw [deliverResponse_eq]
  · by_contra hne
    obtain ⟨hlow, hhigh⟩ := inDelivery_of_deliverResponse hne
    rw [responseLength_eq] at hhigh
    omega

/-- Settles O20: the state before the delivery decision is `finishCrq`, and the decision does not see the result. -/
theorem completeCrqDeliversOrDefers : Obligations.CompleteCrqDeliversOrDefers := by
  refine fun r out s => ⟨fun h => ?_, fun h => if_neg (mt completionEnabled_iff.1 h)⟩
  refine ⟨s.finishCrq out, (s.finishCrq out).deferOrDeliver, rfl, retire_taken (holds_iff.2 h.2) s.draws,
    fun i hi b hb => read_ofBytes_take hi hb, fun hpaused => ?_, fun hrunning => ?_, fun r' => ?_⟩
  · exact if_pos hpaused
  · have hdeliver : (s.finishCrq out).deferOrDeliver = (s.finishCrq out).deliverResponse := by
      simp [State.deferOrDeliver, State.finishCrq, hrunning]
    rw [hdeliver]
    exact deliverResponseWritesOnceAndSendsOnce _
  · exact (execBeCompleteCrq_next r').2 ⟨completionEnabled_iff.2 h, rfl⟩

end Sys2Proof.Machine
end

section
/-! PROOFS. CRQ message dispatch: the messages answered at once (O21, O25), the ignored ones (O22) and the command
message (O23). -/

namespace Sys2Proof.Machine

/-- An admitted CRQ message has its effect and is answered its transport status (R160). -/
theorem crqDispatch_admitted {s : State} (hg : s.GuestReady .crq) (t : State) (status : Reply) :
    crqDispatch s t status = .next (t.answer status) :=
  crqDispatch_next.2 ⟨hg, rfl⟩

/-- A message whose effect is one send adds its bytes to SENT, is answered OK, and changes nothing else but the number
of the next draw (R75, R160). -/
theorem crqDispatch_send {s : State} (hg : s.GuestReady .crq) {m : CrqMsg} {bytes : List Byte}
    (hm : crqBytes m = bytes) :
    ∃ ok d, crqDispatch s (s.send m) .ok = .next
      { s with log := { s.log with sent := s.log.sent ++ [⟨bytes, ok⟩] }, draws := d, reply := .ok } :=
  ⟨Config.freeBool s.draws, s.draws + 1, hm ▸ crqDispatch_admitted hg (s.send m) .ok⟩

/-- Settles O21. -/
theorem initMessagesAreAcknowledgedWithZeroes : Obligations.InitMessagesAreAcknowledgedWithZeroes :=
  fun _ _ _ _ hg => ⟨crqDispatch_send hg (by decide), crqDispatch_send hg (by decide)⟩

/-- Settles O22: the effect of each of these messages is the state as it was. -/
theorem unrecognisedMessagesAreIgnored : Obligations.UnrecognisedMessagesAreIgnored := by
  intro valid msg len data rsv s hg i hi
  simp only [List.mem_cons, List.not_mem_nil, or_false] at hi
  rcases hi with rfl | rfl | rfl <;> exact crqDispatch_admitted hg s .ok

/-- `trunc16` in the words of the statement (R12). -/
theorem trunc16_eq_ofNat_mod (n : Nat) : trunc16 n = BitVec.ofNat 16 (n % 65536) :=
  BitVec.eq_of_toNat_eq (by simp [trunc16])

/-- Settles O25. -/
theorem informationalMessagesAreAnswered : Obligations.InformationalMessagesAreAnswered :=
  fun _ data rsv s hg => ⟨crqDispatch_send hg (crqBytes_len_zero _ _ _ _),
    crqDispatch_send hg (congrArg (fun len => [0x80, 0x83] ++ toBe16 len ++ toBe32 data ++ toBe64 rsv)
      (trunc16_eq_ofNat_mod s.crq.nq)),
    crqDispatch_send hg rfl⟩

/-! ## The command message -/

/-- An accepted command is saved, read into SCR by one DMA read and delivered; a failed read is answered besides
(R165). -/
theorem acceptCommand_eq (s : State) (m : CrqMsg) :
    s.acceptCommand m =
      let ok := Config.freeBool s.draws
      let scr := s.dmaBytes ok m.data s.crq.nq
      let inLen := min (headerSize scr) s.crq.nq
      { s with
        crq := { s.crq with saved := m, vstate := .executing, scr := scr }
        backend := { s.backend with outstanding := s.backend.outstanding ++ [⟨.crq, inLen, s.crq.nq⟩] }
        log := { s.log with
          dma := s.log.dma ++ [.read m.data s.crq.nq ok]
          be := s.log.be ++ [.deliver 0 inLen s.crq.nq]
          sent := if ok then s.log.sent else
            s.log.sent ++ [⟨[0x80, 0xFF, 0x00, 0x00, 0x00, 0x00, 0x00, 0x03] ++ toBe64 m.rsv,
              Config.freeBool (s.draws + 1)⟩] }
        draws := if ok then s.draws + 1 else s.draws + 2 } := by
  have herror : crqBytes (vtpmError m errCopyInFailed)
      = [0x80, 0xFF, 0x00, 0x00, 0x00, 0x00, 0x00, 0x03] ++ toBe64 m.rsv :=
    (crqBytes_vtpmError m errCopyInFailed).trans (by rw [toBe32_errCopyInFailed]; rfl)
  rw [← herror]
  unfold State.acceptCommand State.acceptCommandWith
  cases Config.freeBool s.draws <;> rfl

/-- A DMA read that succeeds brings guest memory's bytes into the buffer (R74). -/
theorem read_dmaBytes_ok (s : State) (addr : Word) {n i : Nat} (hi : i < n) :
    (s.dmaBytes true addr n).read i = s.guestMem.read (addr.toNat + i) := by
  rw [State.dmaBytes, if_pos rfl, read_ofBytes, readBytes_getElem? _ _ _ _ hi, Option.getD_some]

/-- Settles O23: an accepted command's effect is `acceptCommand_eq`. -/
theorem tpmCommandIsBusyOrAccepted : Obligations.TpmCommandIsBusyOrAccepted := by
  intro len data rsv s hg
  refine ⟨fun hbusy => execCrqTpmCommand_next.2 ⟨hg, .inl ⟨hbusy, rfl⟩⟩, fun hidle => ?_⟩
  refine ⟨s.dmaBytes (Config.freeBool s.draws) data s.crq.nq, Config.freeBool s.draws, Config.freeBool (s.draws + 1),
    if Config.freeBool s.draws then s.draws + 1 else s.draws + 2,
    execCrqTpmCommand_next.2 ⟨hg, .inr ⟨hidle, ?_⟩⟩, fun hok i hi => ?_⟩
  · rw [acceptCommand_eq]
    rfl
  · rw [hok]
    exact read_dmaBytes_ok s data hi

end Sys2Proof.Machine
end

section
/-! PROOFS. What is refused: a guest access before the first reset or while the guest is paused (O26), an operation of a
front end that is not there (O27), and every input of a paused guest (O56). -/

namespace Sys2Proof.Machine

/-! ## What stands against an operation -/

theorem gated_some {g : Option Refusal} {r : Refusal} (hg : g = some r) (t : State) : gated g t = .refused r := by
  rw [hg]
  rfl

theorem deviceGate_noDevice {s : State} (hf : s.frontEnd = none) (fe : FrontEnd) :
    deviceGate fe s = some .noDevice := by
  simp [deviceGate, hf]

theorem deviceGate_wrongFrontEnd {fe f : FrontEnd} {s : State} (hf : s.frontEnd = some f) (hne : f ≠ fe) :
    deviceGate fe s = some .wrongFrontEnd := by
  simp [deviceGate, hf, hne]

/-- What stands against the front end stands against its guest accesses. -/
theorem guestGate_of_deviceGate {fe : FrontEnd} {s : State} {r : Refusal} (hg : deviceGate fe s = some r) :
    guestGate fe s = some r := by
  simp [guestGate, hg]

/-- On a device of its front end a guest access is admitted by the reset first, then by the pause (log 21). -/
theorem guestGate_of_device {fe : FrontEnd} {s : State} (hf : s.frontEnd = some fe) :
    guestGate fe s = if s.wasReset = false then some .guestBeforeReset
      else if s.host.snapPhase = true then some .guestWhilePaused else none := by
  simp [guestGate, deviceGate_none.2 hf]

/-- While the guest is paused, something stands against each of its accesses (R201). -/
theorem guestGate_paused {s : State} (hp : s.host.snapPhase = true) (fe : FrontEnd) : ∃ r, guestGate fe s = some r := by
  refine Option.ne_none_iff_exists'.1 fun hg => ?_
  obtain ⟨-, -, hrunning⟩ := guestGate_none.1 hg
  simp [hp] at hrunning

theorem migrationGate_noDevice {s : State} (hf : s.frontEnd = none) : migrationGate s = some .noDevice := by
  simp [migrationGate, hf]

theorem migrationGate_crb {s : State} (hf : s.frontEnd = some .crb) : migrationGate s = some .crbNotMigratable := by
  simp [migrationGate, hf]

/-! ## The operations refused -/

/-- Every guest access is refused by what stands against it, whatever its width or effect. -/
theorem exec_guestAccess_refused {i : Instr} {fe : FrontEnd} {s : State} {r : Refusal} (hi : guestAccess i = some fe)
    (hg : guestGate fe s = some r) : exec i s = .refused r := by
  cases i
  case beCompleteCrb | beCompleteCrq | resetCrb | resetCrq | construct | destroy | quiesceCrq | snapshotCrq | restoreCrq
      | resumeCrq | quiesceCrb | evtUndefined => cases hi
  case crqTpmCommand =>
    cases hi
    simp only [exec, execCrqTpmCommand]
    split <;> exact gated_some hg _
  -- every other guest access is the gate before one state
  all_goals
    cases hi
    exact gated_some hg _

/-- SNAPSHOT, RESTORE and RESUME are refused by what stands against them. -/
theorem exec_migration_refused {s : State} {r : Refusal} (hg : migrationGate s = some r) (rec : Snapshot) :
    exec .snapshotCrq s = .refused r ∧ exec (.restoreCrq rec) s = .refused r ∧ exec .resumeCrq s = .refused r :=
  ⟨by simp [exec, execSnapshotCrq, hg], by simp [exec, execRestoreCrq, hg], gated_some hg _⟩

/-- Settles O26: `guestGate_of_device` looks at the reset before the pause, and at no width. -/
theorem guestIsRefusedBeforeResetAndWhilePaused : Obligations.GuestIsRefusedBeforeResetAndWhilePaused := by
  intro i fe s hi hf
  have hgate := guestGate_of_device hf
  refine ⟨fun hr => exec_guestAccess_refused hi ?_, fun hr hp => exec_guestAccess_refused hi ?_⟩
  · rw [hgate, if_pos hr]
  · rw [hgate, if_neg (by simp [hr]), if_pos hp]

/-- A guest access, a reset and a quiesce of the front end `fe` are refused by what stands against `fe`. -/
theorem exec_refused_of_deviceGate {i : Instr} {fe : FrontEnd} {s : State} {r : Refusal} (hfe : frontEndOf i = some fe)
    (hi : guestAccess i = some fe ∨ i ∈ [Instr.resetCrb, .resetCrq, .quiesceCrq, .quiesceCrb])
    (hg : deviceGate fe s = some r) : exec i s = .refused r := by
  rcases hi with hi | hi
  · exact exec_guestAccess_refused hi (guestGate_of_deviceGate hg)
  · simp only [List.mem_cons, List.not_mem_nil, or_false] at hi
    rcases hi with rfl | rfl | rfl | rfl <;> cases hfe <;> exact gated_some hg _

/-- Settles O27. -/
theorem operationsBelongToTheirFrontEnd : Obligations.OperationsBelongToTheirFrontEnd := by
  refine ⟨fun i fe s hfe hi => ⟨fun hf => ?_, fun f hf hne => ?_⟩, fun i rec s hf hi => ?_⟩
  · exact exec_refused_of_deviceGate hfe hi (deviceGate_noDevice hf fe)
  · exact exec_refused_of_deviceGate hfe hi (deviceGate_wrongFrontEnd hf hne)
  · obtain ⟨hsnapshot, hrestore, hresume⟩ := exec_migration_refused (migrationGate_noDevice hf) rec
    simp only [List.mem_cons, List.not_mem_nil, or_false] at hi
    rcases hi with rfl | rfl | rfl | rfl
    · simp [exec, execDestroy, hf]
    · exact hsnapshot
    · exact hrestore
    · exact hresume

/-! ## The paused guest -/

/-- An MMIO transaction is a guest access of the CRB front end (R6). -/
theorem guestAccess_decodeMmio (h : BitVec 16) (v : Long) : guestAccess (decodeMmio h v) = some .crb := by
  simp only [decodeMmio]
  split_ifs <;> rfl

/-- A CRQ message is a guest access of the CRQ front end (R6). -/
theorem guestAccess_decodeCrq (m : CrqMsg) : guestAccess (decodeCrq m) = some .crq := by
  unfold decodeCrq
  split_ifs <;> rfl

/-- A packet of the guest is of no meaning, or decodes to a guest access. -/
theorem decode_of_guest {p : Packet} (hp : agentOf (.packet p) = .guest) :
    (∃ n, decode p = .error (.crqLength n)) ∨ ∃ i fe, decode p = .ok i ∧ guestAccess i = some fe := by
  cases p with
  | mmio h v => exact .inr ⟨_, _, rfl, guestAccess_decodeMmio h v⟩
  | crq bytes =>
    cases hm : crqOfBytes bytes with
    | none => exact .inl ⟨bytes.length, by simp [decode, hm]⟩
    | some m => exact .inr ⟨_, _, by simp [decode, hm], guestAccess_decodeCrq m⟩
  | evt e ops =>
    simp only [agentOf] at hp
    split_ifs at hp

/-- Every input of a paused guest marks the run refused (R201). -/
theorem runInput_of_pausedGuest {x : Input} {s : State} (hx : agentOf x = .guest) (hp : s.host.snapPhase = true) :
    ∃ r, runInput x s = .next (s.markRefused r) := by
  cases x with
  | guestStore addr bytes => exact ⟨.guestWhilePaused, by simp [runInput, storeGate, hp, gated, settle]⟩
  | packet p =>
    rcases decode_of_guest hx with ⟨n, hn⟩ | ⟨i, fe, hi, ha⟩
    · exact ⟨.crqLength n, by simp [runInput, runPacket, hn]⟩
    · obtain ⟨r, hr⟩ := guestGate_paused hp fe
      exact ⟨r, by simp [runInput, runPacket, hi, exec_guestAccess_refused ha hr, settle]⟩

/-- Settles O56: outside the snapshot phase nothing stands against a store. -/
theorem guestHasNoStepsWhilePaused : Obligations.GuestHasNoStepsWhilePaused := by
  refine ⟨fun x s hx hp => runInput_of_pausedGuest hx hp, fun addr bytes s hp => ?_⟩
  refine ⟨s.guestMem.write addr bytes, ?_, fun a => read_write s.guestMem addr a bytes⟩
  exact settle_next.2 (.inl (gated_next.2 ⟨storeGate_none.2 hp, rfl⟩))

end Sys2Proof.Machine
end

section
/-! PROOFS. The migration events of a CRQ device: quiesce (O28), snapshot (O29), restore (O30) and resume (O31), that a
CRB device has none (O32), and the one delivery across a migration (O33). -/

namespace Sys2Proof.Machine

/-! ## Quiesce, snapshot and restore -/

/-- Settles O28. -/
theorem quiesceBeginsSnapshotPhase : Obligations.QuiesceBeginsSnapshotPhase :=
  fun _ hf => gated_next.2 ⟨deviceGate_none.2 hf, rfl⟩

theorem exec_snapshotCrq {s : State} (hf : s.frontEnd = some .crq) : exec .snapshotCrq s =
    if snapshotReady s then .next (s.answer (.snapshot s.record)) else .fault .notEnabled := by
  simp only [exec, execSnapshotCrq, migrationGate_none.2 hf]

/-- Byte `i` of the record is byte `i` of SCR (R203). -/
theorem record_scr_getElem? {s : State} {i : Nat} (hi : i < s.crq.nq) :
    s.record.scr[i]? = some (s.crq.scr.read i) := by
  rw [State.record, readBytes_getElem? _ _ _ _ hi, Nat.zero_add]

/-- Settles O29: what holds a snapshot is `snapshotReady_eq_false`. -/
theorem snapshotReturnsRecordOrIsHeld : Obligations.SnapshotReturnsRecordOrIsHeld := by
  refine fun s hf => ⟨fun hheld => ?_, fun ⟨hp, hnone⟩ => ?_⟩
  · rw [exec_snapshotCrq hf, snapshotReady_eq_false.2 hheld]
    rfl
  · have hready : snapshotReady s = true := by
      refine Bool.eq_true_of_not_eq_false fun hheld => ?_
      rcases snapshotReady_eq_false.1 hheld with hp' | ⟨q, hq, hqf⟩
      · simp [hp] at hp'
      · exact hnone q hq hqf
    refine ⟨s.record.scr, ?_, readBytes_length _ _ _, fun i => record_scr_getElem?⟩
    rw [exec_snapshotCrq hf, hready]
    rfl

theorem exec_restoreCrq {s : State} (hf : s.frontEnd = some .crq) (rec : Snapshot) : exec (.restoreCrq rec) s =
    if rec.nq = s.crq.nq then .next ((s.restored rec).answer .done) else .refused .restoreSizeMismatch := by
  simp only [exec, execRestoreCrq, migrationGate_none.2 hf]

/-- A restored buffer holds the bytes of the record, as many as fit (R204; log 22). -/
theorem restored_scr_read {rec : Snapshot} {s : State} {i : Nat} {b : Byte} (hi : i < s.crq.nq)
    (hb : rec.scr[i]? = some b) : (s.restored rec).crq.scr.read i = b :=
  read_ofBytes_take hi hb

/-- Settles O30. -/
theorem restoreLoadsRecordOfSameSize : Obligations.RestoreLoadsRecordOfSameSize := by
  refine fun rec s hf => ⟨fun hn => ?_, fun hn => (exec_restoreCrq hf rec).trans (if_neg hn)⟩
  exact ⟨(s.restored rec).crq.scr, s.draws + 1, (exec_restoreCrq hf rec).trans (if_pos hn),
    fun i hi b hb => restored_scr_read hi hb⟩

/-! ## Resume -/

/-- The state RESUME_CRQ leaves in the snapshot phase (R205). -/
def State.resumed (s : State) : State :=
  ({ s.replay with host := { s.replay.host with snapPhase := false } }).answer .done

@[simp] theorem resumed_crq (s : State) : s.resumed.crq = { s.crq with deferred := false } := replay_crq s
@[simp] theorem resumed_frontEnd (s : State) : s.resumed.frontEnd = s.frontEnd := replay_frontEnd s

theorem replay_deferred {s : State} (hd : s.crq.deferred = true) :
    s.replay = { s.deliverResponse with crq := { s.deliverResponse.crq with deferred := false } } := by
  simp [State.replay, hd]

theorem replay_not_deferred {s : State} (hd : s.crq.deferred = false) : s.replay = s := by
  simp [State.replay, hd]

/-- A replay records one delivery, the one of R173. -/
theorem resumed_log_deferred {s : State} (hd : s.crq.deferred = true) : s.resumed.log = s.deliverResponse.log := by
  rw [State.resumed, replay_deferred hd]
  rfl

theorem resumed_log_not_deferred {s : State} (hd : s.crq.deferred = false) : s.resumed.log = s.log := by
  rw [State.resumed, replay_not_deferred hd]
  rfl

theorem exec_resumeCrq {s : State} (hf : s.frontEnd = some .crq) :
    exec .resumeCrq s = .next (if s.host.snapPhase then s.resumed else s.answer .done) :=
  execResumeCrq_next.2 ⟨hf, rfl⟩

/-- Settles O31: the deferred delivery is the one of O19. -/
theorem resumeReplaysDeferredResponse : Obligations.ResumeReplaysDeferredResponse := by
  intro s hf
  rw [exec_resumeCrq hf]
  refine ⟨fun hp => ?_, fun hp hd => ?_, fun hp hd => ?_⟩
  · rw [hp]
    rfl
  · rw [hp, if_pos rfl, State.resumed, replay_not_deferred hd]
    rfl
  · refine ⟨s.deliverResponse, deliverResponseWritesOnceAndSendsOnce s, ?_⟩
    rw [hp, if_pos rfl, State.resumed, replay_deferred hd]
    rfl

/-- A second resume does nothing (R205). -/
theorem exec_resumeCrq_resumed {s : State} (hf : s.frontEnd = some .crq) :
    exec .resumeCrq s.resumed = .next s.resumed :=
  exec_resumeCrq ((resumed_frontEnd s).trans hf)

/-- Settles O32. -/
theorem crbDeviceIsNotMigratable : Obligations.CrbDeviceIsNotMigratable :=
  fun rec _ hf => ⟨gated_next.2 ⟨deviceGate_none.2 hf, rfl⟩, exec_migration_refused (migrationGate_crb hf) rec⟩

/-! ## The source of a migration -/

theorem exec_quiesceCrq_next {s t : State} :
    exec .quiesceCrq s = .next t ↔
      s.frontEnd = some .crq ∧ t = ({ s with host := { s.host with snapPhase := true } }).answer .done := by
  rw [exec, execQuiesceCrq, gated_next, deviceGate_none]

/-- A snapshot that answers a record answers the device's own, and changes nothing else (R203). -/
theorem exec_snapshotCrq_record {s t : State} {rec : Snapshot} (h : exec .snapshotCrq s = .next t)
    (hr : t.reply = .snapshot rec) : rec = s.record ∧ t = s.answer (.snapshot rec) := by
  obtain ⟨-, -, rfl⟩ := execSnapshotCrq_next h
  cases hr
  exact ⟨rfl, rfl⟩

/-- In the snapshot phase a completion only marks its delivery deferred (R172). -/
theorem deferOrDeliver_paused {s : State} (hp : s.host.snapPhase = true) :
    s.deferOrDeliver = { s with crq := { s.crq with deferred := true } } :=
  if_pos hp

/-- Quiesce, completion and snapshot on the source: nothing is sent or written, and the record is that of a completed
command with its delivery deferred, the output in its buffer (R200, R172, R203). -/
theorem snapshot_of_deferred_completion {r : Word} {out : List Byte} {rec : Snapshot} {s s1 s2 s3 : State}
    (hq : exec .quiesceCrq s = .next s1) (hc : exec (.beCompleteCrq r out) s1 = .next s2)
    (hs : exec .snapshotCrq s2 = .next s3) (hr : s3.reply = .snapshot rec) :
    s3.log = s.log ∧ rec.vstate = .completed ∧ rec.deferred = true ∧ rec.saved = s.crq.saved ∧ rec.nq = s.crq.nq
      ∧ ∀ i b, i < s.crq.nq → out[i]? = some b → rec.scr[i]? = some b := by
  obtain ⟨-, rfl⟩ := exec_quiesceCrq_next.1 hq
  obtain ⟨-, rfl⟩ := (execBeCompleteCrq_next r).1 hc
  obtain ⟨rfl, rfl⟩ := exec_snapshotCrq_record hs hr
  rw [deferOrDeliver_paused rfl]
  refine ⟨rfl, rfl, rfl, rfl, rfl, fun i b hi hb => (record_scr_getElem? ?_).trans (congrArg some ?_)⟩
  · exact hi
  · exact read_ofBytes_take hi hb

/-- Quiesce and snapshot alone: the record is that of the device as it stood (R200, R203). -/
theorem snapshot_of_quiesced {rec : Snapshot} {s s1 s2 : State} (hq : exec .quiesceCrq s = .next s1)
    (hs : exec .snapshotCrq s1 = .next s2) (hr : s2.reply = .snapshot rec) : rec = s.record := by
  obtain ⟨-, rfl⟩ := exec_quiesceCrq_next.1 hq
  exact (exec_snapshotCrq_record hs hr).1

/-! ## The destination of a migration -/

/-- The state a destination of the record is restored to (R204). -/
def State.loaded (d : State) (rec : Snapshot) : State := (d.restored rec).answer .done

@[simp] theorem loaded_vstate (d : State) (rec : Snapshot) : (d.loaded rec).crq.vstate = rec.vstate := rfl
@[simp] theorem loaded_saved (d : State) (rec : Snapshot) : (d.loaded rec).crq.saved = rec.saved := rfl
@[simp] theorem loaded_deferred (d : State) (rec : Snapshot) : (d.loaded rec).crq.deferred = rec.deferred := rfl

/-- Restore, resume and a second resume on a destination of the record's N_q (R204, R205). -/
theorem exec_restoreCrq_resumeCrq {d : State} {rec : Snapshot} (hf : d.frontEnd = some .crq)
    (hn : rec.nq = d.crq.nq) :
    exec (.restoreCrq rec) d = .next (d.loaded rec) ∧ exec .resumeCrq (d.loaded rec) = .next (d.loaded rec).resumed
      ∧ exec .resumeCrq (d.loaded rec).resumed = .next (d.loaded rec).resumed :=
  have hloaded : (d.loaded rec).frontEnd = some .crq := hf
  ⟨(exec_restoreCrq hf rec).trans (if_pos hn), exec_resumeCrq hloaded, exec_resumeCrq_resumed hloaded⟩

/-- A byte a destination delivers lies inside the buffer (R173). -/
theorem loaded_response_lt {d : State} {rec : Snapshot} {i : Nat} {b : Byte}
    (hb : ((d.loaded rec).crq.scr.readBytes 0 (d.loaded rec).crq.responseLength)[i]? = some b) :
    i < (d.loaded rec).crq.responseLength ∧ i < d.crq.nq := by
  have hi : i < (d.loaded rec).crq.responseLength := by simpa using (List.getElem?_eq_some_iff.1 hb).1
  exact ⟨hi, hi.trans_le (Nat.min_le_right _ _)⟩

/-- What a destination delivers of a record is a byte of the record (R173, R204). -/
theorem loaded_response_getElem? {d : State} {rec : Snapshot} {i : Nat} {b c : Byte}
    (hb : ((d.loaded rec).crq.scr.readBytes 0 (d.loaded rec).crq.responseLength)[i]? = some b)
    (hc : rec.scr[i]? = some c) : b = c := by
  obtain ⟨hi, hnq⟩ := loaded_response_lt hb
  rw [response_getElem? hi] at hb
  exact (Option.some.inj hb).symm.trans (restored_scr_read hnq hc)

/-- Settles O33: the source records its completion as deferred and delivers nothing; the destination replays it by one
delivery, or replays nothing where the record has none deferred. -/
theorem migrationDeliversExactlyOnce : Obligations.MigrationDeliversExactlyOnce := by
  refine ⟨fun r out rec s s1 s2 s3 d hq hc hs hr hf hn => ?_, fun rec s s1 s2 d hq hs hr hdef hf hn => ?_⟩
  · obtain ⟨hlog, hvstate, hdef, hsaved, hnq, hscr⟩ := snapshot_of_deferred_completion hq hc hs hr
    obtain ⟨hrestore, hresume, hagain⟩ := exec_restoreCrq_resumeCrq hf (hnq.trans hn.symm)
    have hdelivered := resumed_log_deferred ((loaded_deferred d rec).trans hdef)
    rw [deliverResponse_eq, loaded_saved, hsaved] at hdelivered
    refine ⟨congrArg Logs.sent hlog, congrArg Logs.dma hlog, _, _, hrestore, hresume, hagain, by simp,
      by simpa using hvstate, rfl, _, _, _, congrArg Logs.dma hdelivered, congrArg Logs.sent hdelivered,
      fun i b hb hi => ?_, fun hok => ?_⟩
    · have hnqi : i < s.crq.nq := hn ▸ (loaded_response_lt hb).2
      have hout := List.getElem?_eq_getElem hi
      rw [hout, loaded_response_getElem? hb (hscr i _ hnqi hout)]
    · rw [readBytes_length, crqBytes_response, if_pos hok, loaded_saved, hsaved]
  · cases snapshot_of_quiesced hq hs hr
    obtain ⟨hrestore, hresume, -⟩ := exec_restoreCrq_resumeCrq (rec := s.record) hf hn.symm
    exact ⟨_, _, hrestore, hresume, resumed_log_not_deferred hdef, by simp [State.record], by simp [State.record]⟩

end Sys2Proof.Machine
end

section
/-! PROOFS. The backend's two constants, B and BE_VERSION (O43): no effect of an operation writes them. -/

namespace Sys2Proof.Machine

@[simp] theorem acceptCommand_bufferSize (s : State) (m : CrqMsg) :
    (s.acceptCommand m).backend.bufferSize = s.backend.bufferSize := by
  unfold State.acceptCommand State.acceptCommandWith
  split <;> rfl

@[simp] theorem acceptCommand_version (s : State) (m : CrqMsg) :
    (s.acceptCommand m).backend.version = s.backend.version := by
  unfold State.acceptCommand State.acceptCommandWith
  split <;> rfl

/-- The effects that write the backend write OUTSTANDING or HAD_STARTUP_ERROR: a delivery, a completion, a reset and
destruction (R221, R222, R224, R225). -/
theorem Effect.backend_constants {i : Instr} {s u : State} (h : Effect s i u) :
    u.backend.bufferSize = s.backend.bufferSize ∧ u.backend.version = s.backend.version := by
  cases h
  case accept | completeCrq | construct | resume => simp
  -- every other effect shows the backend it leaves
  all_goals exact ⟨rfl, rfl⟩

/-- Settles O43: a step runs one operation, marks the run or takes a guest's store, and only the first touches the
backend. -/
theorem backendConstantsNeverChange : Obligations.BackendConstantsNeverChange := by
  intro s t h
  obtain ⟨-, x, rest, -, ⟨p, i, -, -, he⟩ | ⟨r, rfl⟩ | ⟨a, bs, -, -, rfl⟩⟩ := step_cases h
  · obtain ⟨u, r, hu, rfl⟩ := exec_effect he
    exact hu.backend_constants
  · exact ⟨rfl, rfl⟩
  · exact ⟨rfl, rfl⟩

end Sys2Proof.Machine
end

section
/-! PROOFS. The transport status BUSY (O24): what each kind of operation answers, and that only the command message
answers BUSY. -/

namespace Sys2Proof.Machine

/-- A register-window write answers BusReject or that it was written (R66). -/
theorem crbRegWrite_reply {sz : BitVec 3} {off : Nat} {s t u : State} (h : crbRegWrite sz off s t = .next u) :
    u.reply = .busReject ∨ u.reply = .written := by
  obtain ⟨-, rfl⟩ := crbRegWrite_next.1 h
  split
  · exact .inl rfl
  · exact .inr rfl

/-- A CRQ dispatch answers its transport status (R160). -/
theorem crqDispatch_reply {s t u : State} {status : Reply} (h : crqDispatch s t status = .next u) :
    u.reply = status := by
  obtain ⟨-, rfl⟩ := crqDispatch_next.1 h
  rfl

/-- A register-window read answers BusReject or its value (R64, R66). -/
theorem execCrbRdReg_reply {sz : BitVec 3} {off : BitVec 8} {s t : State} (h : execCrbRdReg sz off s = .next t) :
    t.reply = .busReject ∨ ∃ n v, t.reply = .value n v := by
  obtain ⟨-, rfl⟩ := execCrbRdReg_next.1 h
  split
  · exact .inl rfl
  · exact .inr ⟨_, _, rfl⟩

/-- RESUME_CRQ answers nothing, replayed or not (R205). -/
theorem execResumeCrq_reply {s t : State} (h : execResumeCrq s = .next t) : t.reply = .done := by
  obtain ⟨-, rfl⟩ := execResumeCrq_next.1 h
  split <;> rfl

/-- CONSTRUCT answers a configuration error or nothing (R270). -/
theorem execConstruct_reply {fe : FrontEnd} {present : Bool} {s t : State} (h : execConstruct fe present s = .next t) :
    (∃ code e, t.reply = .error code e) ∨ t.reply = .done := by
  obtain ⟨reason, rfl⟩ | ⟨-, -, rfl⟩ := execConstruct_next h
  · exact .inl ⟨_, _, rfl⟩
  · exact .inr rfl

/-- A command message that answers BUSY found the device executing, and only answered (R165). -/
theorem execCrqTpmCommand_busy {len : Half} {data : Word} {rsv : Long} {s t : State}
    (h : execCrqTpmCommand len data rsv s = .next t) (hb : t.reply = .busy) :
    s.crq.vstate = .executing ∧ t = s.answer .busy := by
  obtain ⟨-, hbusy | ⟨-, rfl⟩⟩ := execCrqTpmCommand_next.1 h
  · exact hbusy
  · cases hb

/-- An operation that answers BUSY is a command message (R242): every other kind answers something else. -/
theorem exec_busy_command {i : Instr} {s t : State} (he : exec i s = .next t) (hb : t.reply = .busy) :
    ∃ len data rsv, i = .crqTpmCommand len data rsv := by
  cases i
  case crqTpmCommand len data rsv => exact ⟨len, data, rsv, rfl⟩
  case crbWrCmdReady | crbWrGoIdle | crbWrCtrlReqOther | crbWrCancelInvoke | crbWrCancelOther | crbWrStartInvoke
      | crbWrStartOther | crbWrLocRequestAccess | crbWrLocRelinquish | crbWrLocResetEstablishment | crbWrLocCtrlOther
      | crbWrIgnored =>
    have hreply := crbRegWrite_reply he
    simp [hb] at hreply
  case crqInitResult | crqInitCompleteResult | crqInitOther | crqGetVersion | crqGetRtceBufferSize
      | crqPrepareToSuspend | crqCmdOther | crqTagOther =>
    have hreply := crqDispatch_reply he
    simp [hb] at hreply
  case crbRdReg =>
    have hreply := execCrbRdReg_reply he
    simp [hb] at hreply
  case construct =>
    have hreply := execConstruct_reply he
    simp [hb] at hreply
  case resumeCrq =>
    have hreply := execResumeCrq_reply he
    simp [hb] at hreply
  -- each of the others leads to one state, which shows its answer
  case crbRdData => obtain ⟨-, rfl⟩ := execCrbRdData_next.1 he; cases hb
  case crbWrData => obtain ⟨-, rfl⟩ := execCrbWrData_next.1 he; cases hb
  case beCompleteCrb => obtain ⟨-, rfl⟩ := execBeCompleteCrb_next.1 he; cases hb
  case beCompleteCrq r out => obtain ⟨-, rfl⟩ := (execBeCompleteCrq_next r).1 he; cases hb
  case resetCrb => obtain ⟨-, rfl⟩ := execResetCrb_next.1 he; cases hb
  case resetCrq => obtain ⟨-, rfl⟩ := execResetCrq_next.1 he; cases hb
  case destroy => obtain ⟨-, rfl⟩ := execDestroy_next he; cases hb
  case snapshotCrq => obtain ⟨-, -, rfl⟩ := execSnapshotCrq_next he; cases hb
  case restoreCrq => obtain ⟨-, -, rfl⟩ := execRestoreCrq_next he; cases hb
  case quiesceCrq | quiesceCrb => obtain ⟨-, rfl⟩ := gated_next.1 he; cases hb
  case evtUndefined => cases he

/-- Settles O24: BUSY is the answer of a command message, which answers it only while executing. -/
theorem busyOnlyForCommandWhileExecuting : Obligations.BusyOnlyForCommandWhileExecuting := by
  intro i s t he hb
  obtain ⟨len, data, rsv, rfl⟩ := exec_busy_command he hb
  exact ⟨⟨len, data, rsv, rfl⟩, execCrqTpmCommand_busy he hb⟩

end Sys2Proof.Machine
end

section
/-! PROOFS. The reset of each front end: the register file of a CRB device (O36), the negotiated size and the kept
scratch bytes of a CRQ device (O37), and that every admitted configuration meets the invariant after it (O49). -/

namespace Sys2Proof.Machine

/-- The words the reset table does not name are 0 after a reset (R22, R271). -/
theorem word_atReset_other {o : Nat} (h : o ∉ [0x00, 0x30, 0x34, 0x44, 0x58, 0x5C, 0x64, 0x68]) :
    CrbRegs.atReset.word o = 0 := by
  unfold CrbRegs.word
  split <;> simp_all [CrbRegs.atReset]

/-- Settles O36: the registers are `CrbRegs.atReset`, and the result of StartupTpm is a draw. -/
theorem resetCrbRestoresPowerOnRegisters : Obligations.ResetCrbRestoresPowerOnRegisters := by
  intro s hf n
  exact ⟨CrbRegs.atReset, !Config.freeBool s.draws, s.draws + 1, execResetCrb_next.2 ⟨hf, rfl⟩,
    rfl, rfl, rfl, rfl, rfl, rfl, rfl, rfl, fun _ => word_atReset_other⟩

/-- A byte below both sizes is kept when a buffer is resized (R47, R272). -/
theorem read_resize {m : Memory} {old n i : Nat} (h : i < min old n) : (m.resize old n).read i = m.read i := by
  simp only [Memory.read, Memory.resize, cellAt_filter_lt, if_pos h]

/-- Rounding up to a whole number of pages of at least one (R9, R12, 90_conflicts.md C1). -/
theorem negotiateCrq_spec (b : Nat) :
    negotiateCrq b % 4096 = 0 ∧ 4096 ≤ negotiateCrq b ∧ b ≤ negotiateCrq b
      ∧ (negotiateCrq b = 4096 ∨ negotiateCrq b < b + 4096) := by
  have hn : negotiateCrq b = max ((b + 4095) / 4096 * 4096) 4096 := rfl
  omega

/-- RESET_CRQ resets the backend, then starts it with N_q (R226, R272). -/
theorem resetCrq_log (s : State) : s.resetCrq.log =
    { s.log with control := s.log.control ++ [.reset, .startup (negotiateCrq s.backend.bufferSize)] } :=
  congrArg (fun calls => { s.log with control := calls }) (List.append_assoc _ _ _)

/-- Settles O37: the version and the startup error are those of the state before. -/
theorem resetCrqNegotiatesAndGoesIdle : Obligations.ResetCrqNegotiatesAndGoesIdle := by
  intro s hf
  obtain ⟨hpages, hone, hfits, hleast⟩ := negotiateCrq_spec s.backend.bufferSize
  refine ⟨negotiateCrq s.backend.bufferSize, s.crq.scr.resize s.crq.nq (negotiateCrq s.backend.bufferSize),
    !Config.freeBool s.draws, s.draws + 1, execResetCrq_next.2 ⟨hf, ?_⟩, hpages, hone, hfits, hleast,
    fun _ => read_resize⟩
  rw [← resetCrq_log]
  rfl

/-- Settles O49: the memories list no byte, nothing is outstanding, and both sizes are the negotiated ones. -/
theorem resetMeetsInvariant : Obligations.ResetMeetsInvariant := by
  intro fe b v e0 e hsix hB
  exact
    { memories := ⟨free_wf 1, free_wf 2, free_wf 0, nofun, nofun⟩
      sizes := ⟨Nat.min_le_right _ _, Nat.le_max_right _ _, fun _ _ => rfl, fun _ _ => rfl,
        fun hf => hsix (Option.some.inj hf)⟩
      regs := ⟨.inr live_atReset, fun _ _ => live_atReset⟩
      slot := ⟨start_atReset, fun _ hs => absurd (start_atReset.symm.trans hs) nofun⟩
      lengths := ⟨hB, hB, ⟨Nat.le_refl 0, Nat.zero_le _⟩, nofun, nofun⟩
      host := ⟨rfl, nofun, fun _ => rfl⟩
      faults := List.nodup_nil }

end Sys2Proof.Machine
end

section
/-! PROOFS. Construction (O34, O35) and destruction (O38): what CONSTRUCT answers where a device exists and where none
does, and that a destroyed device has no step but the next CONSTRUCT. -/

namespace Sys2Proof.Machine

/-! ## Construction -/

/-- With a backend, no device and a configuration that is admitted, CONSTRUCT realises the device (R270, R275). -/
theorem exec_construct {fe : FrontEnd} {s : State} (h0 : s.host.registry = 0)
    (hB : fe = .crb → 6 ≤ s.backend.bufferSize) :
    exec (.construct fe true) s = .next ((s.constructed fe).answer .done) := by
  have hadmitted : ¬(fe = .crb ∧ s.backend.bufferSize < 6) := fun ⟨hf, hlt⟩ => absurd (hB hf) (Nat.not_le.2 hlt)
  simp [exec, execConstruct, h0, hadmitted]

/-- Every register word is 0 after construction (R270). -/
theorem word_zero (o : Nat) : CrbRegs.zero.word o = 0 := by
  unfold CrbRegs.word
  split <;> rfl

/-- Settles O34. -/
theorem constructRealisesOneDevice : Obligations.ConstructRealisesOneDevice := by
  refine fun fe present s => ⟨fun h1 => if_pos h1, fun h0 hp => ?_, fun h0 hp hB => ?_⟩
  · simp [exec, execConstruct, h0, hp, State.answer]
  · subst hp
    refine ⟨(s.constructed fe).crb, (s.constructed fe).crq, s.draws + 1, (exec_construct h0 hB).trans ?_, ?_, ?_⟩
    · cases fe <;> simp [State.constructed, State.answer, State.drew, h0]
    · rintro rfl
      exact ⟨rfl, word_zero, rfl⟩
    · rintro rfl
      exact ⟨rfl, rfl, rfl, rfl, rfl, rfl⟩

/-- Settles O35. -/
theorem crbConfigurationNeedsSixBytes : Obligations.CrbConfigurationNeedsSixBytes := by
  intro s h0 hB
  simp [exec, execConstruct, h0, hB]

/-! ## Destruction -/

/-- The state DESTROY leaves (R276). -/
def State.destroyed (s : State) : State :=
  { s with
    frontEnd := none
    wasReset := false
    host := { s.host with registry := s.host.registry - 1 }
    backend := { s.backend with outstanding := [] } }

theorem exec_destroy {s : State} (hf : s.frontEnd ≠ none) : exec .destroy s = .next (s.destroyed.answer .done) := by
  obtain ⟨fe, hfe⟩ := Option.ne_none_iff_exists'.1 hf
  simp only [exec, execDestroy, hfe, State.destroyed]

/-- An operation of the front end `fe` that answers a next state found the device of `fe` (log 13). -/
theorem frontEnd_of_exec_next {i : Instr} {fe : FrontEnd} {s t : State} (hi : frontEndOf i = some fe)
    (he : exec i s = .next t) : s.frontEnd = some fe := by
  cases i <;> cases hi
  case beCompleteCrb => exact (completionEnabled_iff.1 (execBeCompleteCrb_next.1 he).1).1
  case beCompleteCrq r out => exact (completionEnabled_iff.1 ((execBeCompleteCrq_next r).1 he).1).1
  case snapshotCrq => exact (execSnapshotCrq_next he).1
  case restoreCrq => exact (execRestoreCrq_next he).1
  case resumeCrq => exact (execResumeCrq_next.1 he).1
  case resetCrb | resetCrq | quiesceCrq | quiesceCrb => exact deviceGate_none.1 (gated_next.1 he).1
  case crqTpmCommand =>
    obtain ⟨⟨hf, -⟩, -⟩ := execCrqTpmCommand_next.1 he
    exact hf
  -- every other guest access is the gate before one state
  all_goals
    obtain ⟨hf, -⟩ := guestGate_none.1 (gated_next.1 he).1
    exact hf

/-- Where no device exists no operation answers a next state but CONSTRUCT (R276). -/
theorem exec_next_of_noDevice {i : Instr} {s t : State} (hf : s.frontEnd = none) (he : exec i s = .next t) :
    ∃ fe present, i = .construct fe present := by
  cases i
  case construct fe present => exact ⟨fe, present, rfl⟩
  case destroy => exact absurd hf (execDestroy_next he).1
  case evtUndefined => cases he
  -- every other operation has a front end
  all_goals exact absurd (hf.symm.trans (frontEnd_of_exec_next rfl he)) nofun

/-- Settles O38: a destroyed device has no front end, and under the invariant REGISTRY is back at 0. -/
theorem destroyEndsTheDevice : Obligations.DestroyEndsTheDevice := by
  intro s hf
  refine ⟨s.destroyed.answer .done, exec_destroy hf, rfl, fun i u => exec_next_of_noDevice rfl, fun hs hB fe => ?_⟩
  have h0 : s.destroyed.host.registry = 0 := (hs.destroyed hf).registry_eq
  exact ⟨_, exec_construct h0 fun _ => hB, constructed_frontEnd _ fe⟩

end Sys2Proof.Machine
end
